-- ==== Sys2Proof/Word.lean ====
section
/-! DEFINITION. The widths of 00_scope.md rule R6 and 30_encoding.md rule R59, and the four formats of
spec/opcode_table.json in which the host presents something to the block. -/

namespace Sys2Proof

/-- A byte: 8 bits, unsigned (00_scope.md rule R6). -/
abbrev Byte := BitVec 8

/-- The `crc` register and every checksum: 16 bits (00_scope.md rule R6). -/
abbrev Crc := BitVec 16

/-- A command word: 11 bits, `op[10:8] d[7:0]` (30_encoding.md rule R59). -/
abbrev CommandWord := BitVec 11

/-- What the host presents, by the `format` column of spec/opcode_table.json. -/
inductive Form where
  /-- Format CW: one 11-bit command word (30_encoding.md rule R59). -/
  | cw (w : CommandWord)
  /-- Format REQ: what the host supplies of a request frame (30_encoding.md rule R45), the `register` value and the
  payload values, as integers not yet narrowed to bytes (41_encode.md rule R90); the checksum is the block's to append. -/
  | req (register : Int) (payload : List Int)
  /-- Format RSP: the four bytes of a received response frame, offset 0 first (30_encoding.md rule R46). -/
  | rsp (b0 b1 b2 b3 : Byte)
  /-- Format PSEUDO: the line `CRC16 [b0, ...]` (30_encoding.md rule R65). -/
  | crc16 (bytes : List Byte)
  /-- Format PSEUDO: the line `ENCODE r, [p0, ...]` (30_encoding.md rule R65). -/
  | encode (register : Int) (payload : List Int)
  /-- Format PSEUDO: the line `DECODE b0, b1, b2, b3` (30_encoding.md rule R65). -/
  | decode (b0 b1 b2 b3 : Byte)
deriving DecidableEq, Repr

end Sys2Proof
end

