-- ==== Sys2Proof/Config.lean ====
section
/-! DEFINITION. The fixed parameters and constants of the block: 00_scope.md rule R6 and 30_encoding.md rules R48 to R50.
The one open parameter that a rule of the block reads, MAX_PAYLOAD, is an argument of the block's step (`Block.step`); the
value that the machine behind the host's interface supplies for it is here (notes/assumptions/3.md). -/

namespace Sys2Proof.Config

/-- `CRC_POLY` (00_scope.md rule R6). -/
def crcPoly : Crc := 0x1021#16

/-- `CRC_INIT` (00_scope.md rule R6). -/
def crcInit : Crc := 0x0000#16

/-- The argument the machine supplies for `MAX_PAYLOAD`: the spec's default, unbounded (00_scope.md rule R6); `some n` is the
bound `n` (DESIGN CHOICE: notes/assumptions/3.md). -/
def maxPayload : Option Nat := none

/-- Command register ids (30_encoding.md rule R48). -/
def brightnessId : Byte := 0x20#8
def rotateId : Byte := 0x30#8
def powerId : Byte := 0x31#8
def maxIdxId : Byte := 0x32#8
def idxStepId : Byte := 0x33#8
def driveModeId : Byte := 0x34#8

/-- The reserved STATUS response id (30_encoding.md rule R49). -/
def statusId : Byte := 0x10#8

/-- Status codes (30_encoding.md rule R50). -/
def success : Byte := 0x00#8
def wrongChecksum : Byte := 0x01#8
def unknownCommand : Byte := 0x02#8
def notReady : Byte := 0x03#8
def invalidValue : Byte := 0x04#8

/-- The bus address of a device index (60_exceptions.md rule R136). A free value: number and values of the addresses are left
to the platform (20_memory.md rule R33), so nothing can be proved of them (notes/assumptions/21.md). -/
opaque deviceAddress : Nat → Nat

end Sys2Proof.Config
end

