-- ==== Sys2Proof/Syntax.lean ====
section
/-! DEFINITION. The instructions: one constructor per row of spec/opcode_table.json, in the table's order. -/

namespace Sys2Proof

/-- The rows of spec/opcode_table.json. Payloads and the `register` of ENCODE are integers, because the transaction
level narrows integers to bytes and raises ValidationError where one does not fit (41_encode.md rules R90, R91). -/
inductive Instr where
  /-- CRC_CLR (40_crc.md rule R82). -/
  | crcClr
  /-- CRC_BYTE d (40_crc.md rule R83). -/
  | crcByte (d : Byte)
  /-- ENC_START d (41_encode.md rule R95). -/
  | encStart (d : Byte)
  /-- ENC_DATA d (41_encode.md rule R96). -/
  | encData (d : Byte)
  /-- ENC_END (41_encode.md rule R97). -/
  | encEnd
  /-- DEC_BYTE d (42_decode.md rule R110). -/
  | decByte (d : Byte)
  /-- RESERVED_OP6: `op` = 0b110, any `d` (30_encoding.md rule R62). -/
  | reservedOp6 (d : Byte)
  /-- RESERVED_OP7: `op` = 0b111, any `d` (30_encoding.md rule R62). -/
  | reservedOp7 (d : Byte)
  /-- BRIGHTNESS, register 0x20 (30_encoding.md rules R48, R54). -/
  | brightness (payload : List Int)
  /-- ROTATE, register 0x30 (30_encoding.md rules R48, R52). -/
  | rotate (payload : List Int)
  /-- POWER, register 0x31 (30_encoding.md rules R48, R53). -/
  | power (payload : List Int)
  /-- MAX_IDX, register 0x32 (30_encoding.md rules R48, R55). -/
  | maxIdx (payload : List Int)
  /-- IDX_STEP, register 0x33 (30_encoding.md rules R48, R55). -/
  | idxStep (payload : List Int)
  /-- DRIVE_MODE, register 0x34 (30_encoding.md rules R48, R55). -/
  | driveMode (payload : List Int)
  /-- STATUS, the response frame `0x10 status checksum_lo checksum_hi` (30_encoding.md rules R46, R49). -/
  | status (status checksumLo checksumHi : Byte)
  /-- CRC16 [b0, ..., bn-1] (40_crc.md rule R84). -/
  | crc16 (bytes : List Byte)
  /-- ENCODE r, [p0, ..., pN-1] (41_encode.md rule R98). -/
  | encode (register : Int) (payload : List Int)
  /-- DECODE b0, b1, b2, b3 (42_decode.md rule R112). -/
  | decode (b0 b1 b2 b3 : Byte)
deriving DecidableEq, Repr

end Sys2Proof
end

