-- ==== Sys2Proof/Decode.lean ====
section
/-! DEFINITION. Decoding what the host presents into an instruction (30_encoding.md rules R48, R49, R59 to R62, R65), the
encoder, and the two readings of spec/opcode_table.json the host asks about. -/

namespace Sys2Proof

/-- Why a command word spells no instruction: the reserved words that are no row of the opcode table
(30_encoding.md rule R62). Issuing one is an IllegalCommand (60_exceptions.md rule R124), see Machine/Step.lean. -/
inductive DecodeError where
  /-- `0x001` to `0x0FF`: CRC_CLR with a non-zero operand. -/
  | crcClrWithOperand
  /-- `0x401` to `0x4FF`: ENC_END with a non-zero operand. -/
  | encEndWithOperand
deriving DecidableEq, Repr

/-- The operand `d = w[7:0]` of a command word (30_encoding.md rule R61). -/
def operandOf (w : CommandWord) : Byte := w.extractLsb' 0 8

/-- A row of the opcode map matches when `w & mask = match` (30_encoding.md rule R60). -/
def spells (w pattern mask : CommandWord) : Bool := w &&& mask == pattern

/-- The opcode map of 30_encoding.md rules R60 and R62, a row a line. -/
def decodeWord (w : CommandWord) : Except DecodeError Instr :=
  if spells w 0x000#11 0x7FF#11 then .ok .crcClr
  else if spells w 0x100#11 0x700#11 then .ok (.crcByte (operandOf w))
  else if spells w 0x200#11 0x700#11 then .ok (.encStart (operandOf w))
  else if spells w 0x300#11 0x700#11 then .ok (.encData (operandOf w))
  else if spells w 0x400#11 0x7FF#11 then .ok .encEnd
  else if spells w 0x500#11 0x700#11 then .ok (.decByte (operandOf w))
  else if spells w 0x600#11 0x700#11 then .ok (.reservedOp6 (operandOf w))
  else if spells w 0x700#11 0x700#11 then .ok (.reservedOp7 (operandOf w))
  else if spells w 0x000#11 0x700#11 then .error .crcClrWithOperand
  else .error .encEndWithOperand

/-- A byte as the integer it holds, unsigned (00_scope.md rule R6). -/
def byteValue (b : Byte) : Int := (b.toNat : Int)

/-- A request frame by its `register` value (30_encoding.md rule R48). The block frames any other value the same way
(rules R51, R58): such a request is the ENCODE pseudo-operation (notes/assumptions/8.md). -/
def decodeRequest (register : Int) (payload : List Int) : Instr :=
  if register = byteValue Config.brightnessId then .brightness payload
  else if register = byteValue Config.rotateId then .rotate payload
  else if register = byteValue Config.powerId then .power payload
  else if register = byteValue Config.maxIdxId then .maxIdx payload
  else if register = byteValue Config.idxStepId then .idxStep payload
  else if register = byteValue Config.driveModeId then .driveMode payload
  else .encode register payload

/-- A response frame by its `cmd_id` (30_encoding.md rule R49). The block decodes any other `cmd_id` the same way (rules
R51, R58): such a response is the DECODE pseudo-operation (notes/assumptions/8.md). -/
def decodeResponse (b0 b1 b2 b3 : Byte) : Instr :=
  if b0 = Config.statusId then .status b1 b2 b3 else .decode b0 b1 b2 b3

/-- The decoder, total on all that can be presented. -/
def decode : Form → Except DecodeError Instr
  | .cw w => decodeWord w
  | .req r p => .ok (decodeRequest r p)
  | .rsp b0 b1 b2 b3 => .ok (decodeResponse b0 b1 b2 b3)
  | .crc16 bs => .ok (.crc16 bs)
  | .encode r p => .ok (.encode r p)
  | .decode b0 b1 b2 b3 => .ok (.decode b0 b1 b2 b3)

/-- A command word `(op << 8) | d` (30_encoding.md rules R59, R64). -/
def commandWord (op : BitVec 3) (d : Byte) : CommandWord := op ++ d

/-- The encoder: what the host presents for an instruction, from the same tables (30_encoding.md rules R45, R46, R48, R49,
R60, R62, R65). -/
def encode : Instr → Form
  | .crcClr => .cw (commandWord 0b000#3 0x00#8)
  | .crcByte d => .cw (commandWord 0b001#3 d)
  | .encStart d => .cw (commandWord 0b010#3 d)
  | .encData d => .cw (commandWord 0b011#3 d)
  | .encEnd => .cw (commandWord 0b100#3 0x00#8)
  | .decByte d => .cw (commandWord 0b101#3 d)
  | .reservedOp6 d => .cw (commandWord 0b110#3 d)
  | .reservedOp7 d => .cw (commandWord 0b111#3 d)
  | .brightness p => .req (byteValue Config.brightnessId) p
  | .rotate p => .req (byteValue Config.rotateId) p
  | .power p => .req (byteValue Config.powerId) p
  | .maxIdx p => .req (byteValue Config.maxIdxId) p
  | .idxStep p => .req (byteValue Config.idxStepId) p
  | .driveMode p => .req (byteValue Config.driveModeId) p
  | .status s lo hi => .rsp Config.statusId s lo hi
  | .crc16 bs => .crc16 bs
  | .encode r p => .encode r p
  | .decode b0 b1 b2 b3 => .decode b0 b1 b2 b3

/-- The byte an integer is narrowed to when it fits one (41_encode.md rule R91). -/
def narrow (v : Int) : Byte := BitVec.ofInt 8 v

/-- The words of `ENCODE r, p`: ENC_START, one ENC_DATA a payload byte, ENC_END (30_encoding.md rule R65). -/
def encodeWords (register : Byte) (payload : List Byte) : List CommandWord :=
  commandWord 0b010#3 register :: (payload.map (commandWord 0b011#3) ++ [commandWord 0b100#3 0x00#8])

/-- The command words an instruction stands for: one for a command, the expansion of 30_encoding.md rule R65 for a
pseudo-operation or a frame. Meaningful for a well-formed instruction. -/
def commandWords : Instr → List CommandWord
  | .crcClr => [commandWord 0b000#3 0x00#8]
  | .crcByte d => [commandWord 0b001#3 d]
  | .encStart d => [commandWord 0b010#3 d]
  | .encData d => [commandWord 0b011#3 d]
  | .encEnd => [commandWord 0b100#3 0x00#8]
  | .decByte d => [commandWord 0b101#3 d]
  | .reservedOp6 d => [commandWord 0b110#3 d]
  | .reservedOp7 d => [commandWord 0b111#3 d]
  | .brightness p => encodeWords Config.brightnessId (p.map narrow)
  | .rotate p => encodeWords Config.rotateId (p.map narrow)
  | .power p => encodeWords Config.powerId (p.map narrow)
  | .maxIdx p => encodeWords Config.maxIdxId (p.map narrow)
  | .idxStep p => encodeWords Config.idxStepId (p.map narrow)
  | .driveMode p => encodeWords Config.driveModeId (p.map narrow)
  | .status s lo hi => [Config.statusId, s, lo, hi].map (commandWord 0b101#3)
  | .crc16 bs => commandWord 0b000#3 0x00#8 :: bs.map (commandWord 0b001#3)
  | .encode r p => encodeWords (narrow r) (p.map narrow)
  | .decode b0 b1 b2 b3 => [b0, b1, b2, b3].map (commandWord 0b101#3)

/-- The operand bytes of a run of CRC_BYTE words, if the words are that and nothing else. -/
def crcByteRun : List CommandWord → Option (List Byte)
  | [] => some []
  | w :: ws =>
    match decodeWord w with
    | .ok (.crcByte d) => (crcByteRun ws).map (d :: ·)
    | _ => none

/-- The operand bytes of a run of ENC_DATA words closed by ENC_END, if the words are that and nothing else. -/
def encDataRun : List CommandWord → Option (List Byte)
  | [] => none
  | w :: ws =>
    match decodeWord w with
    | .ok .encEnd => if ws.isEmpty then some [] else none
    | .ok (.encData d) => (encDataRun ws).map (d :: ·)
    | _ => none

/-- The operand bytes of a run of DEC_BYTE words, if the words are that and nothing else. -/
def decByteRun : List CommandWord → Option (List Byte)
  | [] => some []
  | w :: ws =>
    match decodeWord w with
    | .ok (.decByte d) => (decByteRun ws).map (d :: ·)
    | _ => none

/-- The pseudo-operation a sequence of command words spells (the `encoding` column of the PSEUDO rows), if it spells one. -/
def decodeSequence : List CommandWord → Option Instr
  | [] => none
  | w :: ws =>
    match decodeWord w with
    | .ok .crcClr => (crcByteRun ws).map .crc16
    | .ok (.encStart r) => (encDataRun ws).map fun p => .encode (byteValue r) (p.map byteValue)
    | .ok (.decByte b0) =>
      match decByteRun ws with
      | some [b1, b2, b3] => some (.decode b0 b1 b2 b3)
      | _ => none
    | _ => none

/-- What a bit pattern of spec/opcode_table.json's rows presents: a row of 11 bits is a command word in a container of
whole bytes whose upper bits are 0; a row of 8 bits is byte 0 of a frame, whose further operands are absent (a request's
payload) or zero (a response's three further bytes), see notes/assumptions/19.md. -/
def tableForm (nbits w : Nat) : Option Form :=
  if nbits ≤ 8 then
    if w < 256 then
      if BitVec.ofNat 8 w = Config.statusId then some (.rsp (BitVec.ofNat 8 w) 0x00#8 0x00#8 0x00#8)
      else some (.req (w : Int) [])
    else none
  else if w < 2048 then some (.cw (BitVec.ofNat 11 w))
  else none

/-- The instruction the decoder reads from a row's bits. -/
def decodeTableWord (nbits w : Nat) : Option Instr :=
  match tableForm nbits w with
  | some f =>
    match decode f with
    | .ok i => some i
    | .error _ => none
  | none => none

end Sys2Proof
end

