-- ==== Sys2Proof/Machine/State.lean ====
section
/-! DEFINITION. `Block` is the state of 10_state.md rule R10: its fields and no other. Its step, with the command and
MAX_PAYLOAD as arguments, is `Block.step` (BlockStep.lean). `State` adds the one thing that the host's interface
`step : State → Outcome` forces into it, having no argument for the command: the inputs that the host has presented
(DESIGN CHOICE: notes/assumptions/2.md). -/

namespace Sys2Proof.Machine

/-- Which transaction is open (10_state.md rule R13). `0b11` cannot be written down (93 U7). -/
inductive Phase where
  | idle
  | enc
  | dec
deriving DecidableEq, Repr

/-- The two error results of a transaction (60_exceptions.md rules R120 to R122). They carry nothing (92 D27). -/
inductive CodecError where
  /-- Raised by the encoder: a value does not fit its declared byte width (41_encode.md rule R91). -/
  | validationError
  /-- Raised by the decoder: the recomputed checksum differs from the received one (42_decode.md rule R105). -/
  | checksumError
deriving DecidableEq, Repr

/-- What a transaction-level call gives the host: the value of the function or its error (00_scope.md section 5.2). It is the
result of a call and no state (10_state.md rule R10, notes/assumptions/4.md). -/
inductive Reply where
  /-- `crc16(s)` (40_crc.md rule R75). -/
  | crc (c : Crc)
  /-- `encode(register, payload)` (41_encode.md rule R90). -/
  | frame (f : List Byte)
  /-- `decode_status(f)` (42_decode.md rule R105). -/
  | status (cmdId status : Byte)
  /-- The error the call raised. -/
  | error (e : CodecError)
deriving DecidableEq, Repr

/-- One input of the block (60_exceptions.md rule R134: RESET is an input and not a command). -/
inductive HostInput where
  /-- The RESET event (70_reset_and_hazards.md rule R150). -/
  | reset
  /-- A command, frame or pseudo-operation, in its format. -/
  | present (f : Form)
deriving DecidableEq, Repr

/-- The architectural state of the block: exactly the fields of 10_state.md rule R10. -/
structure Block where
  /-- `crc` -/
  crc : Crc
  /-- `phase` -/
  phase : Phase
  /-- `idx` -/
  idx : Fin 4
  /-- `r_cmd` -/
  rCmd : Byte
  /-- `r_status` -/
  rStatus : Byte
  /-- `r_lo` -/
  rLo : Byte
  /-- `res_cmd` -/
  resCmd : Byte
  /-- `res_status` -/
  resStatus : Byte
  /-- `DV` -/
  dv : Bool
  /-- `F_CHK` -/
  fChk : Bool
  /-- `TXV` -/
  txv : Bool
  /-- `F_SEQ` -/
  fSeq : Bool
  /-- `F_ILL` -/
  fIll : Bool
  /-- `txbuf` -/
  txbuf : List Byte
deriving DecidableEq, Repr

/-- The reset values of 10_state.md rule R22. -/
def Block.reset : Block where
  crc := 0x0000#16
  phase := .idle
  idx := 0
  rCmd := 0x00#8
  rStatus := 0x00#8
  rLo := 0x00#8
  resCmd := 0x00#8
  resStatus := 0x00#8
  dv := false
  fChk := false
  txv := false
  fSeq := false
  fIll := false
  txbuf := []

/-- The block, and the inputs presented to it (notes/assumptions/2.md). -/
structure State where
  /-- The block (10_state.md rule R10). -/
  block : Block
  /-- What the host has presented and the block has not taken yet, the next first (20_memory.md rule R41). The model's field,
  no state of the spec's block. -/
  inbox : List HostInput
deriving DecidableEq, Repr

/-- A fault that would stop the machine: there is none. The block's four abnormal outcomes (60_exceptions.md rule R120)
are next states: two error results, and two sticky flags after which every command is ignored (rules R130, R132). -/
inductive Fault where
deriving DecidableEq, Repr

/-- A refusal. -/
inductive Refusal where
  /-- Raised by an arm of `exec` for an instruction that has no meaning; no arm does. Safe: nothing can be claimed of
  such an instruction. -/
  | notModelled (mnemonic : String)
deriving DecidableEq, Repr

/-- The machine right after reset: the block as 70_reset_and_hazards.md rule R150 says, nothing presented
(DESIGN CHOICE: notes/assumptions/2.md). -/
def State.reset : State where
  block := Block.reset
  inbox := []

end Sys2Proof.Machine
end

