-- ==== Sys2Proof/Machine/Flags.lean ====
section
/-! DEFINITION. The flags and what the host can observe: 10_state.md rules R18, R20, R21. None of the five flags is a
condition code, and the CRC operations write none (40_crc.md rule R79). -/

namespace Sys2Proof.Machine

/-- A sticky fault is set: the block ignores every command (60_exceptions.md rule R132). -/
def Block.faulted (b : Block) : Bool := b.fSeq || b.fIll

/-- The encoding of `phase` (10_state.md rule R13). -/
def Phase.code : Phase → BitVec 2
  | .idle => 0b00#2
  | .enc => 0b01#2
  | .dec => 0b10#2

/-- The status register `SR` (10_state.md rule R20): from bit 7 down, reserved 0, `F_ILL`, `F_SEQ`, `TXV`, `F_CHK`, `DV`,
`PHASE`. -/
def Block.sr (b : Block) : BitVec 8 :=
  0#1 ++ BitVec.ofBool b.fIll ++ BitVec.ofBool b.fSeq ++ BitVec.ofBool b.txv ++ BitVec.ofBool b.fChk ++
    BitVec.ofBool b.dv ++ b.phase.code

/-- The output port `CRC` (10_state.md rule R21). -/
def Block.crcPort (b : Block) : BitVec 16 := b.crc

/-- The output port `RES`: `res_cmd` in bits 7:0, `res_status` in bits 15:8 (10_state.md rule R21). -/
def Block.resPort (b : Block) : BitVec 16 := b.resStatus ++ b.resCmd

/-- The output port `TXBUF`: the whole buffer with its length (10_state.md rule R21). -/
def Block.txbufPort (b : Block) : List Byte := b.txbuf

/-- All that the host can observe of the block (10_state.md rule R21). -/
structure Ports where
  sr : BitVec 8
  crc : BitVec 16
  res : BitVec 16
  txbuf : List Byte
deriving DecidableEq, Repr

/-- The outputs, read together; reading has no side effect (20_memory.md rule R40). -/
def Block.ports (b : Block) : Ports := ⟨b.sr, b.crcPort, b.resPort, b.txbufPort⟩

/-- The payload of the open frame is shorter than `MAX_PAYLOAD` (41_encode.md rule R96): the payload so far is the buffer
less its `register` byte, so `len(txbuf) - 1 < n`, written without a subtraction. -/
def Block.payloadHasRoom (maxPayload : Option Nat) (b : Block) : Bool :=
  match maxPayload with
  | none => true
  | some n => decide (b.txbuf.length < n + 1)

/-- The response frame received, as the byte space `RX` at the fourth DEC_BYTE, whose operand is its byte 3
(20_memory.md rules R30, R32). -/
def Block.rx (b : Block) (d : Byte) : List Byte := [b.rCmd, b.rStatus, b.rLo, d]

end Sys2Proof.Machine
end

