-- ==== Sys2Proof/WellFormed.lean ====
section
/-! DEFINITION. Which instructions can be spelled in command words and frame bytes: those whose integer operands all
fit a byte (41_encode.md rule R91). An instruction that is not well-formed still has its meaning: ValidationError. -/

namespace Sys2Proof

/-- `v` fits one unsigned byte: 0 <= v <= 255 (41_encode.md rule R91). -/
def fitsByte (v : Int) : Bool := decide (0 ≤ v) && decide (v ≤ 255)

/-- Every integer operand of the instruction fits a byte. -/
def Instr.wellFormed : Instr → Bool
  | .crcClr => true
  | .crcByte _ => true
  | .encStart _ => true
  | .encData _ => true
  | .encEnd => true
  | .decByte _ => true
  | .reservedOp6 _ => true
  | .reservedOp7 _ => true
  | .brightness p => p.all fitsByte
  | .rotate p => p.all fitsByte
  | .power p => p.all fitsByte
  | .maxIdx p => p.all fitsByte
  | .idxStep p => p.all fitsByte
  | .driveMode p => p.all fitsByte
  | .status _ _ _ => true
  | .crc16 _ => true
  | .encode r p => fitsByte r && p.all fitsByte
  | .decode _ _ _ _ => true

end Sys2Proof
end

