-- ==== Sys2Proof/Machine/Operands.lean ====
section
/-! DEFINITION. Operands: narrowing integers to bytes (41_encode.md rules R91, R92), splitting and assembling the checksum
(20_memory.md rule R34, 30_encoding.md rule R47), and the payload layouts the host's drivers hand to the encoder
(30_encoding.md rules R52, R54). -/

namespace Sys2Proof.Machine

/-- `to_byte` (41_encode.md rule R91). -/
def toByte (v : Int) : Except CodecError Byte :=
  if fitsByte v then .ok (narrow v) else .error .validationError

/-- Every element narrowed, or the one error: validation is all-or-nothing (41_encode.md rule R92). -/
def toBytes : List Int → Except CodecError (List Byte)
  | [] => .ok []
  | v :: vs =>
    match toByte v, toBytes vs with
    | .ok b, .ok bs => .ok (b :: bs)
    | _, _ => .error .validationError

/-- `checksum_lo = c[7:0]` (30_encoding.md rule R47). -/
def checksumLo (c : Crc) : Byte := c.extractLsb' 0 8

/-- `checksum_hi = c[15:8]` (30_encoding.md rule R47). -/
def checksumHi (c : Crc) : Byte := c.extractLsb' 8 8

/-- `c = [checksum_hi, checksum_lo]`, the byte at the lower offset in bits 7:0 (20_memory.md rule R34). -/
def assemble (lo hi : Byte) : Crc := hi ++ lo

/-- The checksum as it is appended: low byte, then high byte (20_memory.md rules R34, R39). -/
def checksumBytes (c : Crc) : List Byte := [checksumLo c, checksumHi c]

/-- The ROTATE payload of a relative step count (30_encoding.md rule R52). A count of 0 is never sent. -/
def rotatePayload (delta : Int) : List Int :=
  [if delta < 0 then 1 else 0, ((delta.natAbs % 256 : Nat) : Int), ((delta.natAbs / 256 : Nat) : Int)]

/-- The BRIGHTNESS payload of the updated channels of one device, in the order given (30_encoding.md rule R54): each pair
is the channel within the device and its brightness value. -/
def brightnessPayload (pairs : List (Int × Int)) : List Int := pairs.flatMap fun p => [p.1, p.2]

end Sys2Proof.Machine
end

