-- ==== Sys2Proof/Machine/Ops.lean ====
section
/-! DEFINITION. The shared operations: taking a fault and leaving it (60_exceptions.md rules R123, R124, R128, R130, R132,
70_reset_and_hazards.md rules R150, R151), the frame of every command, the buffer, and the inputs of the block. -/

namespace Sys2Proof.Machine

/-- SeqFault: `F_SEQ` is set and nothing else changes (60_exceptions.md rules R123, R130). -/
def Block.seqFault (b : Block) : Block := { b with fSeq := true }

/-- IllegalCommand: `F_ILL` is set and nothing else changes, unless a sticky fault is already set
(60_exceptions.md rules R124, R128 items 1 and 2, R130). -/
def Block.illegalCommand (b : Block) : Block := if b.faulted then b else { b with fIll := true }

/-- The frame of every command (60_exceptions.md rule R128): ignored under a sticky fault; a sequence fault where it is not
legal; its effect otherwise. -/
def Block.command (legal : Bool) (effect : Block → Block) (b : Block) : Block :=
  if b.faulted then b else if legal then effect b else b.seqFault

/-- Append one byte to the transmit buffer, at offset `len(txbuf)`, the only place a write can go
(20_memory.md rules R39, R44). -/
def Block.append (d : Byte) (b : Block) : Block := { b with txbuf := b.txbuf ++ [d] }

/-- The two appends of the checksum, low byte then high byte (20_memory.md rules R34, R39). -/
def Block.appendChecksum (b : Block) : Block := (b.append (checksumLo b.crc)).append (checksumHi b.crc)

/-- The byte of the transmit buffer at an offset, if there is one (20_memory.md rules R30, R31). -/
def Block.txByte (b : Block) (offset : Nat) : Option Byte := b.txbuf[offset]?

/-- A change of the block alone. -/
def State.onBlock (f : Block → Block) (s : State) : State := { s with block := f s.block }

/-- RESET: every field of 10_state.md rule R10 takes its reset value, whatever is open or faulted
(70_reset_and_hazards.md rules R150, R151). It is the only way out of a sticky fault (60_exceptions.md rule R132). -/
def State.applyReset (s : State) : State := s.onBlock fun _ => Block.reset

/-- The next input the host has presented, and the state once it is taken (20_memory.md rules R41, R43: the block keeps no
copy of past inputs). -/
def State.fetch (s : State) : Option (HostInput × State) :=
  match s.inbox with
  | [] => none
  | x :: rest => some (x, { s with inbox := rest })

/-- The host presents one more input, to be taken next. -/
def State.presentNext (x : HostInput) (s : State) : State := { s with inbox := x :: s.inbox }

end Sys2Proof.Machine
end

