-- ==== Sys2Proof/Machine/CrcCommands.lean ====
section
/-! DEFINITION. CRC_CLR, CRC_BYTE and the pseudo-operation CRC16: 40_crc.md rules R82 to R84. -/

namespace Sys2Proof.Machine

/-- CRC_CLR on the block (40_crc.md rule R82). -/
def Block.cmdCrcClr (b : Block) : Block :=
  b.command (b.phase == .idle) fun b => { b with crc := 0x0000#16 }

/-- CRC_BYTE d on the block (40_crc.md rule R83). -/
def Block.cmdCrcByte (d : Byte) (b : Block) : Block :=
  b.command (b.phase == .idle) fun b => { b with crc := crcByte b.crc d }

/-- The expansion of CRC16: CRC_CLR, then one CRC_BYTE a byte (30_encoding.md rule R65). -/
def Block.runCrc16 (bytes : List Byte) (b : Block) : Block :=
  bytes.foldl (fun b d => b.cmdCrcByte d) b.cmdCrcClr

/-- What the host reads after CRC16: the `CRC` port, unless a sticky fault stands. -/
def Block.crcReply (b : Block) : Option Reply := if b.faulted then none else some (.crc b.crcPort)

/-- CRC16 as a call of the host: the block after it, and what it returns (40_crc.md rule R84). -/
def Block.crcCall (bytes : List Byte) (b : Block) : Block × Option Reply :=
  (b.runCrc16 bytes, (b.runCrc16 bytes).crcReply)

/-- CRC_CLR. -/
def execCrcClr (s : State) : Host.Outcome State Fault Refusal := .next (s.onBlock Block.cmdCrcClr)

/-- CRC_BYTE d. -/
def execCrcByte (d : Byte) (s : State) : Host.Outcome State Fault Refusal := .next (s.onBlock (Block.cmdCrcByte d))

/-- CRC16 [b0, ..., bn-1] (40_crc.md rule R84). -/
def execCrc16 (bytes : List Byte) (s : State) : Host.Outcome State Fault Refusal :=
  .next (s.onBlock fun b => (b.crcCall bytes).1)

end Sys2Proof.Machine
end

