-- ==== Sys2Proof/Machine/DecodeCommands.lean ====
section
/-! DEFINITION. DEC_BYTE and the pseudo-operation DECODE: 42_decode.md rules R110 to R113. -/

namespace Sys2Proof.Machine

/-- Byte 0, `cmd_id`: opens the decode; the old `crc` is discarded (42_decode.md rule R110). -/
def Block.takeCmdId (d : Byte) (b : Block) : Block :=
  { b with rCmd := d, crc := crcByte 0x0000#16 d, dv := false, fChk := false, phase := .dec, idx := 1 }

/-- Byte 1, `status` (42_decode.md rule R110). -/
def Block.takeStatus (d : Byte) (b : Block) : Block :=
  { b with rStatus := d, crc := crcByte b.crc d, idx := 2 }

/-- Byte 2, the checksum's low byte; not absorbed into `crc` (42_decode.md rule R110). -/
def Block.takeChecksumLo (d : Byte) (b : Block) : Block := { b with rLo := d, idx := 3 }

/-- Byte 3, the checksum's high byte: compare all 16 bits and finish (42_decode.md rule R110). -/
def Block.takeChecksumHi (d : Byte) (b : Block) : Block :=
  if assemble b.rLo d = b.crc then
    { b with resCmd := b.rCmd, resStatus := b.rStatus, dv := true, phase := .idle, idx := 0 }
  else
    { b with fChk := true, phase := .idle, idx := 0 }

/-- DEC_BYTE d on the block (42_decode.md rule R110): by `idx`, as the rule's pseudocode has it. -/
def Block.cmdDecByte (d : Byte) (b : Block) : Block :=
  b.command (b.phase != .enc) fun b =>
    match b.idx with
    | 0 => b.takeCmdId d
    | 1 => b.takeStatus d
    | 2 => b.takeChecksumLo d
    | 3 => b.takeChecksumHi d

/-- The expansion of DECODE: four DEC_BYTE (30_encoding.md rule R65). -/
def Block.runDecode (b0 b1 b2 b3 : Byte) (b : Block) : Block :=
  (((b.cmdDecByte b0).cmdDecByte b1).cmdDecByte b2).cmdDecByte b3

/-- What the host reads after DECODE (42_decode.md rule R111): the pair while `DV` = 1, ChecksumError while `F_CHK` = 1;
nothing under a sticky fault or while a decode is open. -/
def Block.decodeReply (b : Block) : Option Reply :=
  if b.faulted then none
  else if b.dv then some (.status b.resCmd b.resStatus)
  else if b.fChk then some (.error .checksumError)
  else none

/-- DECODE as a call of the host (42_decode.md rules R112, R113): the block after it, and what it returns. -/
def Block.decodeCall (b0 b1 b2 b3 : Byte) (b : Block) : Block × Option Reply :=
  (b.runDecode b0 b1 b2 b3, (b.runDecode b0 b1 b2 b3).decodeReply)

/-- DEC_BYTE d. -/
def execDecByte (d : Byte) (s : State) : Host.Outcome State Fault Refusal := .next (s.onBlock (Block.cmdDecByte d))

/-- DECODE b0, b1, b2, b3. -/
def execDecode (b0 b1 b2 b3 : Byte) (s : State) : Host.Outcome State Fault Refusal :=
  .next (s.onBlock fun b => (b.decodeCall b0 b1 b2 b3).1)

end Sys2Proof.Machine
end

