-- ==== Sys2Proof/Machine/EncodeCommands.lean ====
section
/-! DEFINITION. ENC_START, ENC_DATA, ENC_END and the pseudo-operation ENCODE: 41_encode.md rules R95 to R98. -/

namespace Sys2Proof.Machine

/-- ENC_START d on the block (41_encode.md rule R95): the old `crc` and `txbuf` are discarded. -/
def Block.cmdEncStart (d : Byte) (b : Block) : Block :=
  b.command (b.phase == .idle) fun b =>
    { b with txbuf := [d], txv := false, crc := crcByte 0x0000#16 d, phase := .enc }

/-- ENC_DATA d on the block, under the parameter `MAX_PAYLOAD` (41_encode.md rule R96). -/
def Block.cmdEncData (maxPayload : Option Nat) (d : Byte) (b : Block) : Block :=
  b.command (b.phase == .enc && b.payloadHasRoom maxPayload) fun b =>
    { b.append d with crc := crcByte b.crc d }

/-- ENC_END on the block (41_encode.md rule R97): the checksum bytes are not absorbed into `crc`. -/
def Block.cmdEncEnd (b : Block) : Block :=
  b.command (b.phase == .enc) fun b => { b.appendChecksum with txv := true, phase := .idle }

/-- The expansion of ENCODE: ENC_START, one ENC_DATA a payload byte, ENC_END (30_encoding.md rule R65). -/
def Block.runEncode (maxPayload : Option Nat) (register : Byte) (payload : List Byte) (b : Block) : Block :=
  (payload.foldl (fun b d => b.cmdEncData maxPayload d) (b.cmdEncStart register)).cmdEncEnd

/-- What the host reads after ENCODE: `txbuf` while `TXV` = 1 (41_encode.md rule R101), unless a sticky fault stands. -/
def Block.encodeReply (b : Block) : Option Reply :=
  if b.faulted then none else if b.txv then some (.frame b.txbufPort) else none

/-- ENCODE as a call of the host (41_encode.md rule R98): the block after it, and what it returns. Every operand is narrowed
first, and on a ValidationError no command is issued and no field changes; otherwise the command sequence is issued. -/
def Block.encodeCall (maxPayload : Option Nat) (register : Int) (payload : List Int) (b : Block) : Block × Option Reply :=
  match toByte register, toBytes payload with
  | .ok r, .ok p => (b.runEncode maxPayload r p, (b.runEncode maxPayload r p).encodeReply)
  | _, _ => (b, some (.error .validationError))

/-- ENC_START d. -/
def execEncStart (d : Byte) (s : State) : Host.Outcome State Fault Refusal := .next (s.onBlock (Block.cmdEncStart d))

/-- ENC_DATA d. -/
def execEncData (d : Byte) (s : State) : Host.Outcome State Fault Refusal :=
  .next (s.onBlock (Block.cmdEncData Config.maxPayload d))

/-- ENC_END. -/
def execEncEnd (s : State) : Host.Outcome State Fault Refusal := .next (s.onBlock Block.cmdEncEnd)

/-- ENCODE r, [p0, ..., pN-1]. -/
def execEncode (register : Int) (payload : List Int) (s : State) : Host.Outcome State Fault Refusal :=
  .next (s.onBlock fun b => (b.encodeCall Config.maxPayload register payload).1)

end Sys2Proof.Machine
end

