-- ==== Sys2Proof/Machine/Frames.lean ====
section
/-! DEFINITION. The frames of the opcode table: the six request frames, built by the ENCODE call with their
`register` (30_encoding.md rules R45, R48, R51, 41_encode.md rule R90), and the STATUS response, verified by the DECODE
call (30_encoding.md rules R46, R49, 42_decode.md rule R105). -/

namespace Sys2Proof.Machine

/-- BRIGHTNESS. -/
def execBrightness (payload : List Int) (s : State) : Host.Outcome State Fault Refusal :=
  .next (s.onBlock fun b => (b.encodeCall Config.maxPayload (byteValue Config.brightnessId) payload).1)

/-- ROTATE. -/
def execRotate (payload : List Int) (s : State) : Host.Outcome State Fault Refusal :=
  .next (s.onBlock fun b => (b.encodeCall Config.maxPayload (byteValue Config.rotateId) payload).1)

/-- POWER. -/
def execPower (payload : List Int) (s : State) : Host.Outcome State Fault Refusal :=
  .next (s.onBlock fun b => (b.encodeCall Config.maxPayload (byteValue Config.powerId) payload).1)

/-- MAX_IDX. -/
def execMaxIdx (payload : List Int) (s : State) : Host.Outcome State Fault Refusal :=
  .next (s.onBlock fun b => (b.encodeCall Config.maxPayload (byteValue Config.maxIdxId) payload).1)

/-- IDX_STEP. -/
def execIdxStep (payload : List Int) (s : State) : Host.Outcome State Fault Refusal :=
  .next (s.onBlock fun b => (b.encodeCall Config.maxPayload (byteValue Config.idxStepId) payload).1)

/-- DRIVE_MODE. -/
def execDriveMode (payload : List Int) (s : State) : Host.Outcome State Fault Refusal :=
  .next (s.onBlock fun b => (b.encodeCall Config.maxPayload (byteValue Config.driveModeId) payload).1)

/-- STATUS. -/
def execStatus (status checksumLo checksumHi : Byte) (s : State) : Host.Outcome State Fault Refusal :=
  .next (s.onBlock fun b => (b.decodeCall Config.statusId status checksumLo checksumHi).1)

end Sys2Proof.Machine
end

