-- ==== Sys2Proof/Machine/ReservedCommands.lean ====
section
/-! DEFINITION. The two reserved opcode rows: 30_encoding.md rule R62, 60_exceptions.md rule R124. -/

namespace Sys2Proof.Machine

/-- RESERVED_OP6, whatever its operand. -/
def execReservedOp6 (_d : Byte) (s : State) : Host.Outcome State Fault Refusal := .next (s.onBlock Block.illegalCommand)

/-- RESERVED_OP7, whatever its operand. -/
def execReservedOp7 (_d : Byte) (s : State) : Host.Outcome State Fault Refusal := .next (s.onBlock Block.illegalCommand)

end Sys2Proof.Machine
end

