-- ==== Sys2Proof/Machine/Dispatch.lean ====
section
/-! DEFINITION. Dispatch: one arm per row of spec/opcode_table.json. -/

namespace Sys2Proof.Machine

def exec (i : Instr) (s : State) : Host.Outcome State Fault Refusal :=
  match i with
  | .crcClr => Sys2Proof.Machine.execCrcClr s
  | .crcByte d => Sys2Proof.Machine.execCrcByte d s
  | .encStart d => Sys2Proof.Machine.execEncStart d s
  | .encData d => Sys2Proof.Machine.execEncData d s
  | .encEnd => Sys2Proof.Machine.execEncEnd s
  | .decByte d => Sys2Proof.Machine.execDecByte d s
  | .reservedOp6 d => Sys2Proof.Machine.execReservedOp6 d s
  | .reservedOp7 d => Sys2Proof.Machine.execReservedOp7 d s
  | .brightness payload => Sys2Proof.Machine.execBrightness payload s
  | .rotate payload => Sys2Proof.Machine.execRotate payload s
  | .power payload => Sys2Proof.Machine.execPower payload s
  | .maxIdx payload => Sys2Proof.Machine.execMaxIdx payload s
  | .idxStep payload => Sys2Proof.Machine.execIdxStep payload s
  | .driveMode payload => Sys2Proof.Machine.execDriveMode payload s
  | .status st lo hi => Sys2Proof.Machine.execStatus st lo hi s
  | .crc16 bytes => Sys2Proof.Machine.execCrc16 bytes s
  | .encode register payload => Sys2Proof.Machine.execEncode register payload s
  | .decode b0 b1 b2 b3 => Sys2Proof.Machine.execDecode b0 b1 b2 b3 s

end Sys2Proof.Machine
end

