-- ==== Sys2Proof/Machine/Step.lean ====
section
/-! DEFINITION. One step: the block takes the next input the host has presented (20_memory.md rule R41) and completes it
(rule R40). With nothing presented it waits, unchanged (70_reset_and_hazards.md rule R164, notes/assumptions/2.md). -/

namespace Sys2Proof.Machine

/-- One step of the machine. A command word that spells no instruction is reserved: IllegalCommand
(30_encoding.md rule R62, 60_exceptions.md rules R124, R128). -/
def step (s : State) : Host.Outcome State Fault Refusal :=
  match s.fetch with
  | none => .next s
  | some (.reset, s') => .next s'.applyReset
  | some (.present f, s') =>
    match decode f with
    | .ok i => exec i s'
    | .error _ => .next (s'.onBlock Block.illegalCommand)

/-- `s` with a row's bits presented as the very next input (notes/assumptions/2.md, 19.md); bits that no port can carry
are not presented. -/
def State.withFetchWord (s : State) (nbits w : Nat) : State :=
  match tableForm nbits w with
  | some f => s.presentNext (.present f)
  | none => s

end Sys2Proof.Machine
end

