-- ==== Sys2Proof/Machine/BlockStep.lean ====
section
/-! DEFINITION. The step of the block as 10_state.md rule R10 has it: the state type is `Block`, with the rule's fields and no
other, and what else a rule needs (the command being executed, MAX_PAYLOAD) is an argument. The machine of Step.lean is this
step with the command taken from `State.inbox` and MAX_PAYLOAD from `Config.maxPayload` (notes/assumptions/2.md, 3.md). -/

namespace Sys2Proof.Machine

/-- One instruction as the host issues it, under the argument MAX_PAYLOAD: the block after it, and what it returns to the
host. A command returns nothing (its outcome is read at the ports); a frame or a pseudo-operation issues its commands
(30_encoding.md rule R65) and returns the transaction's value or error (notes/assumptions/4.md). -/
def Block.call (maxPayload : Option Nat) (i : Instr) (b : Block) : Block × Option Reply :=
  match i with
  | .crcClr => (b.cmdCrcClr, none)
  | .crcByte d => (b.cmdCrcByte d, none)
  | .encStart d => (b.cmdEncStart d, none)
  | .encData d => (b.cmdEncData maxPayload d, none)
  | .encEnd => (b.cmdEncEnd, none)
  | .decByte d => (b.cmdDecByte d, none)
  | .reservedOp6 _ => (b.illegalCommand, none)
  | .reservedOp7 _ => (b.illegalCommand, none)
  | .brightness p => b.encodeCall maxPayload (byteValue Config.brightnessId) p
  | .rotate p => b.encodeCall maxPayload (byteValue Config.rotateId) p
  | .power p => b.encodeCall maxPayload (byteValue Config.powerId) p
  | .maxIdx p => b.encodeCall maxPayload (byteValue Config.maxIdxId) p
  | .idxStep p => b.encodeCall maxPayload (byteValue Config.idxStepId) p
  | .driveMode p => b.encodeCall maxPayload (byteValue Config.driveModeId) p
  | .status st lo hi => b.decodeCall Config.statusId st lo hi
  | .crc16 bs => b.crcCall bs
  | .encode r p => b.encodeCall maxPayload r p
  | .decode b0 b1 b2 b3 => b.decodeCall b0 b1 b2 b3

/-- One instruction on the block, under the argument MAX_PAYLOAD. -/
def Block.execute (maxPayload : Option Nat) (i : Instr) (b : Block) : Block := (b.call maxPayload i).1

/-- One step of the block under the arguments MAX_PAYLOAD and the input (10_state.md rule R10): RESET, an instruction, or a
reserved word. -/
def Block.step (maxPayload : Option Nat) (x : HostInput) (b : Block) : Block :=
  match x with
  | .reset => Block.reset
  | .present f =>
    match decode f with
    | .ok i => b.execute maxPayload i
    | .error _ => b.illegalCommand

/-- A run of the block: a finite sequence of inputs (70_reset_and_hazards.md rule R155). -/
def Block.run (maxPayload : Option Nat) (xs : List HostInput) (b : Block) : Block :=
  xs.foldl (fun b x => b.step maxPayload x) b

end Sys2Proof.Machine
end

