-- ==== Sys2Proof/Machine/Transport.lean ====
section
/-! DEFINITION. The host contract: the source's CommandTransport over the BusChannel, 60_exceptions.md rules R136 to R145.
It stands outside the block (00_scope.md rule R4); it is modelled above it, as functions that issue the block's own calls,
under any MAX_PAYLOAD (notes/assumptions/17.md). No instruction of the block depends on it. -/

namespace Sys2Proof.Machine

/-- How a `send_and_confirm` ends (60_exceptions.md rules R136, R143). -/
inductive SendResult where
  /-- Confirmed success, or a dry run. -/
  | ok
  | validationError
  | checksumError
  | protocolMismatchError
  | commandRejected
  | unknownStatus
  | timeoutError
  /-- Not a result: the blocking read has not returned, because the bus has delivered no further response (rule R137). -/
  | reading
  /-- Not a result: the block gave the transaction no result, because it was not IDLE or a sticky fault stood. -/
  | blockStopped
deriving DecidableEq, Repr

/-- The states of the host's state machine (60_exceptions.md rule R144). -/
inductive TransportState where
  | sent
  | polling
  | succeeded
  | failedRetryable
  | failedFatal
  | failedTimeout
deriving DecidableEq, Repr

/-- What the host does on the bus, in order (60_exceptions.md rules R136, R137, R142). -/
inductive BusEvent where
  /-- `BusChannel.select(address)`; an address is opaque (20_memory.md rule R33). -/
  | select (address : Nat)
  /-- `BusChannel.write(bytes)`. -/
  | write (frame : List Byte)
  /-- `BusChannel.read(4)` and the four bytes it gave. -/
  | read (b0 b1 b2 b3 : Byte)
  /-- The `poll_delay` between two iterations; its length is invisible to the block (70 rule R164). -/
  | delay (pollDelay : Nat)
  /-- Dry run: the frame recorded or logged, no bus touched (rule R142). -/
  | record (frame : List Byte)
deriving DecidableEq, Repr

/-- One 4-byte response the bus delivers (60_exceptions.md rule R137). -/
structure Response where
  b0 : Byte
  b1 : Byte
  b2 : Byte
  b3 : Byte
deriving DecidableEq, Repr

/-- What one poll decides (60_exceptions.md rules R138, R139, R140). -/
inductive PollDecision where
  | finish (r : SendResult)
  /-- Keep polling, without a resend. -/
  | continuePolling
  /-- Resend the cached frame if there is one, and keep polling. -/
  | resend
deriving DecidableEq, Repr

/-- The decision on a response whose checksum passed: `cmd_id` first, then `status` (60_exceptions.md rules R129, R138,
R139). -/
def decideStatus (cmdId status : Byte) : PollDecision :=
  if cmdId ≠ Config.statusId then .finish .protocolMismatchError
  else if status = Config.success then .finish .ok
  else if status = Config.notReady then .continuePolling
  else if status = Config.wrongChecksum then .resend
  else if status = Config.unknownCommand then .finish .commandRejected
  else if status = Config.invalidValue then .finish .commandRejected
  else .finish .unknownStatus

/-- The decision after a DECODE, from what it returned: the checksum is judged first (60_exceptions.md rules R129, R136). -/
def decidePoll (cached : Option (List Byte)) (reply : Option Reply) : PollDecision :=
  match reply with
  | some (.error _) => if cached.isSome then .resend else .finish .checksumError
  | some (.status cmdId status) => decideStatus cmdId status
  | _ => .finish .blockStopped

/-- The bus write of a resend: the cached bytes, unchanged (60_exceptions.md rule R140). Without a cached frame nothing is
written and polling goes on; rule R140 does not say what a WRONG_CHECKSUM response does there, and inside
`send_and_confirm` a frame is always cached (DESIGN CHOICE: notes/assumptions/22.md). -/
def resendEvents (cached : Option (List Byte)) : List BusEvent :=
  match cached with
  | some f => [.write f]
  | none => []

/-- The delay between two iterations: none after the last (60_exceptions.md rules R136, R141). -/
def delayEvents (attemptsLeft pollDelay : Nat) : List BusEvent :=
  if attemptsLeft = 0 then [] else [.delay pollDelay]

/-- The poll loop (60_exceptions.md rules R136, R141): one read and one DECODE an iteration, at most `attempts` of them.
`responses` are what the bus delivers, in order. No `poll_delay` precedes the first read, which the spec leaves to the host
(91_not_in_source.md N20; DESIGN CHOICE: notes/assumptions/24.md). -/
def pollLoop : Nat → Nat → Option (List Byte) → List Response → Block → SendResult × List BusEvent × Block
  | 0, _, _, _, b => (.timeoutError, [], b)
  | _ + 1, _, _, [], b => (.reading, [], b)
  | n + 1, pollDelay, cached, r :: rs, b =>
    let read := BusEvent.read r.b0 r.b1 r.b2 r.b3
    match b.decodeCall r.b0 r.b1 r.b2 r.b3 with
    | (b', reply) =>
      match decidePoll cached reply with
      | .finish res => (res, [read], b')
      | .continuePolling =>
        let (res, ev, c) := pollLoop n pollDelay cached rs b'
        (res, read :: (delayEvents n pollDelay ++ ev), c)
      | .resend =>
        let (res, ev, c) := pollLoop n pollDelay cached rs b'
        (res, read :: (resendEvents cached ++ delayEvents n pollDelay ++ ev), c)

/-- The arguments of `send_and_confirm`, and the host's dry-run mode (60_exceptions.md rules R136, R142). That an index is any
number and that each has an address is the model's choice (DESIGN CHOICE: notes/assumptions/21.md). -/
structure SendRequest where
  /-- `device_index`; the address it selects is `Config.deviceAddress` of it. -/
  deviceIndex : Nat
  register : Int
  payload : List Int
  maxAttempts : Nat
  pollDelay : Nat
  dryRun : Bool
deriving DecidableEq, Repr

/-- `send_and_confirm` (60_exceptions.md rule R136): encode, then, unless in dry-run mode, select, write once, and poll. -/
def sendAndConfirm (maxPayload : Option Nat) (q : SendRequest) (responses : List Response) (b : Block) :
    SendResult × List BusEvent × Block :=
  match b.encodeCall maxPayload q.register q.payload with
  | (b', some (.frame f)) =>
    if q.dryRun then (.ok, [.record f], b')
    else
      let (res, ev, c) := pollLoop q.maxAttempts q.pollDelay (some f) responses b'
      (res, .select (Config.deviceAddress q.deviceIndex) :: .write f :: ev, c)
  | (b', some (.error _)) => (.validationError, [], b')
  | (b', _) => (.blockStopped, [], b')

/-- The state of the host's state machine a result ends in (60_exceptions.md rule R144); an unfinished read is Polling. The
rule does not place a ValidationError, which is raised before Sent, a ChecksumError without a cached frame, `blockStopped`, a
dry run's success, or an unfinished read: their states are the model's choice (DESIGN CHOICE: notes/assumptions/23.md). -/
def SendResult.state : SendResult → TransportState
  | .ok => .succeeded
  | .validationError => .failedFatal
  | .checksumError => .failedFatal
  | .protocolMismatchError => .failedFatal
  | .commandRejected => .failedFatal
  | .unknownStatus => .failedFatal
  | .timeoutError => .failedTimeout
  | .reading => .polling
  | .blockStopped => .failedFatal

/-- The state a decision of one poll moves to from Polling (60_exceptions.md rules R139, R144). -/
def PollDecision.state : PollDecision → TransportState
  | .finish r => r.state
  | .continuePolling => .polling
  | .resend => .failedRetryable

/-- The terminal states (60_exceptions.md rule R144). -/
def TransportState.terminal : TransportState → Bool
  | .sent => false
  | .polling => false
  | .succeeded => true
  | .failedRetryable => false
  | .failedFatal => true
  | .failedTimeout => true

/-- What moves the host's state machine. -/
inductive TransportEvent where
  /-- The loop comes to the head of its next iteration. -/
  | poll
  /-- One response has been judged. -/
  | decided (d : PollDecision)
  /-- No attempt is left (60_exceptions.md rule R141). -/
  | exhausted
deriving DecidableEq, Repr

/-- The host's state machine (60_exceptions.md rule R144): Sent begins to poll, FailedRetryable returns to Polling, Polling
goes where its response's judgement says or ends at the bound, and a terminal state stays. An event that a state does not
expect changes nothing (DESIGN CHOICE: notes/assumptions/23.md). -/
def TransportState.next (q : TransportState) (e : TransportEvent) : TransportState :=
  match q, e with
  | .sent, .poll => .polling
  | .failedRetryable, .poll => .polling
  | .polling, .decided d => d.state
  | .polling, .exhausted => .failedTimeout
  | q, _ => q

/-- The states the machine is in from `q` on, one before the first event and one after each. -/
def TransportState.trace (q : TransportState) : List TransportEvent → List TransportState
  | [] => [q]
  | e :: es => q :: (q.next e).trace es

/-- The state machine's events of the poll loop, from its head: as `pollLoop` (60_exceptions.md rules R136, R144). Where the
bus delivers no further response the read has not returned. -/
def pollEvents : Nat → Option (List Byte) → List Response → Block → List TransportEvent
  | 0, _, _, _ => [.poll, .exhausted]
  | _ + 1, _, [], _ => [.poll]
  | n + 1, cached, r :: rs, b =>
    match b.decodeCall r.b0 r.b1 r.b2 r.b3 with
    | (b', reply) =>
      match decidePoll cached reply with
      | .finish res => [.poll, .decided (.finish res)]
      | d => .poll :: .decided d :: pollEvents n cached rs b'

/-- The states a call goes through, in order, from Sent, where the frame has been written (60_exceptions.md rule R144). A dry
run and a call that fails before the write never enter the state machine (notes/assumptions/23.md). -/
def sendStates (maxPayload : Option Nat) (q : SendRequest) (responses : List Response) (b : Block) : List TransportState :=
  match b.encodeCall maxPayload q.register q.payload with
  | (b', some (.frame f)) =>
    if q.dryRun then [] else TransportState.sent.trace (pollEvents q.maxAttempts (some f) responses b')
  | _ => []

/-- The number of bus reads among the events. -/
def countReads (ev : List BusEvent) : Nat := ev.countP fun
  | .read _ _ _ _ => true
  | _ => false

/-- The number of bus writes among the events. -/
def countWrites (ev : List BusEvent) : Nat := ev.countP fun
  | .write _ => true
  | _ => false

end Sys2Proof.Machine
end

