-- ==== Sys2Proof/Machine/Codec.lean ====
section
/-! DEFINITION. The transaction level: the pure functions `encode`, `decode_status`, `frame_ok` (41_encode.md rule R90,
42_decode.md rules R105, R107). The command level is built to agree with them (00_scope.md rule R5). -/

namespace Sys2Proof.Machine

/-- The frame of a body: the body, then its checksum, low byte first (41_encode.md rule R90 steps 2 to 4). -/
def frameOf (body : List Byte) : List Byte := body ++ checksumBytes (crc16 body)

/-- `encode` (41_encode.md rules R90 to R94). -/
def encodeFrame (register : Int) (payload : List Int) : Except CodecError (List Byte) :=
  match toBytes (register :: payload) with
  | .ok body => .ok (frameOf body)
  | .error e => .error e

/-- `decode_status` (42_decode.md rule R105); its type admits exactly four bytes (rule R109). -/
def decodeStatus (f0 f1 f2 f3 : Byte) : Except CodecError (Byte × Byte) :=
  if crc16 [f0, f1] = assemble f2 f3 then .ok (f0, f1) else .error .checksumError

/-- `frame_ok` (42_decode.md rule R107), read from the end of the frame: the last byte is the high byte of the checksum,
the one before it the low byte, and at least one byte stands before them. A shorter sequence is no frame. -/
def frameOk (f : List Byte) : Bool :=
  match f.reverse with
  | hi :: lo :: x :: rest => crc16 (x :: rest).reverse == assemble lo hi
  | _ => false

end Sys2Proof.Machine
end

