-- ==== Sys2Proof/Safety.lean ====
section
/-! DEFINITION. What the spec says of runs and states: 70_reset_and_hazards.md rule R155 (a complete run), 10_state.md rule
R24 (the invariants of the state) and R19 (the capacity of the buffer). -/

namespace Sys2Proof.Machine

/-- The run that ends here is complete: nothing open, no sticky fault (70_reset_and_hazards.md rule R155). -/
def Block.complete (b : Block) : Bool := b.phase == .idle && !b.faulted

/-- A payload of `n` bytes is within `MAX_PAYLOAD`. -/
def withinMaxPayload (maxPayload : Option Nat) (n : Nat) : Bool :=
  match maxPayload with
  | none => true
  | some m => decide (n ≤ m)

/-- The invariants of 10_state.md rule R24 that speak of one state, by their item numbers there (item 1 holds by the type
of `phase`; items 7 and 8 speak of more than one state), and the capacity of 10_state.md rule R19. -/
structure Block.Inv (maxPayload : Option Nat) (b : Block) : Prop where
  /-- item 2 -/
  idx_counts_open_decode : b.phase = .dec ↔ b.idx ≠ 0
  /-- item 3 -/
  not_both_results : ¬(b.dv = true ∧ b.fChk = true)
  /-- item 3 -/
  no_result_while_decoding : b.phase = .dec → b.dv = false ∧ b.fChk = false
  /-- item 4 -/
  open_frame : b.phase = .enc → b.faulted = false →
    b.txv = false ∧ 1 ≤ b.txbuf.length ∧ withinMaxPayload maxPayload (b.txbuf.length - 1) = true ∧ b.crc = crc16 b.txbuf
  /-- item 5 -/
  valid_frame : b.txv = true → 3 ≤ b.txbuf.length ∧ b.phase ≠ .enc ∧ frameOk b.txbuf = true
  /-- item 6 -/
  crc_of_cmd_id : b.phase = .dec → b.idx = 1 → b.crc = crc16 [b.rCmd]
  /-- item 6 -/
  crc_of_cmd_id_status : b.phase = .dec → b.idx = 2 ∨ b.idx = 3 → b.crc = crc16 [b.rCmd, b.rStatus]
  /-- 10_state.md rule R19 -/
  capacity : withinMaxPayload maxPayload (b.txbuf.length - 3) = true

/-- The invariant of the machine, at the MAX_PAYLOAD it supplies. -/
def State.Inv (s : State) : Prop := s.block.Inv Config.maxPayload

end Sys2Proof.Machine
end

