-- ==== Sys2Proof/Certificates/Slice0/Obligations.lean ====
section
/-! DEFINITION. The statements for the provers. A statement of a next state as one record equation is also its frame: every
field the record update does not name is unchanged, the transmit buffer among them. -/

open Sys2Proof Sys2Proof.Machine

/-! ### Encoding -/

/-- Words written out from 30_encoding.md rules R60 and R64 (`op` in the first three digits, `d` in the other eight), and
frames and lines written out from rules R48, R49, R65, decode to the instruction they stand for. -/
def Obligations.WrittenOutWordsDecode : Prop :=
  decode (.cw 0b000_00000000#11) = .ok .crcClr ∧
  decode (.cw 0b001_00110001#11) = .ok (.crcByte 0x31#8) ∧
  decode (.cw 0b010_00110000#11) = .ok (.encStart 0x30#8) ∧
  decode (.cw 0b011_00101100#11) = .ok (.encData 0x2C#8) ∧
  decode (.cw 0b100_00000000#11) = .ok .encEnd ∧
  decode (.cw 0b101_00010000#11) = .ok (.decByte 0x10#8) ∧
  decode (.cw 0b110_00000001#11) = .ok (.reservedOp6 0x01#8) ∧
  decode (.cw 0b111_11111111#11) = .ok (.reservedOp7 0xFF#8) ∧
  decode (.req 0x30 [1, 0x2C, 0x01]) = .ok (.rotate [1, 0x2C, 0x01]) ∧
  decode (.rsp 0x10#8 0x00#8 0x73#8 0x03#8) = .ok (.status 0x00#8 0x73#8 0x03#8)

/-- 30_encoding.md rule R60: the opcode map, a row a clause, for every command word. -/
def Obligations.OpcodeMapOfCommandWords : Prop :=
  ∀ w : CommandWord,
    (w &&& 0x7FF#11 = 0x000#11 ↔ decode (.cw w) = .ok .crcClr) ∧
    (w &&& 0x700#11 = 0x100#11 ↔ decode (.cw w) = .ok (.crcByte (w.extractLsb' 0 8))) ∧
    (w &&& 0x700#11 = 0x200#11 ↔ decode (.cw w) = .ok (.encStart (w.extractLsb' 0 8))) ∧
    (w &&& 0x700#11 = 0x300#11 ↔ decode (.cw w) = .ok (.encData (w.extractLsb' 0 8))) ∧
    (w &&& 0x7FF#11 = 0x400#11 ↔ decode (.cw w) = .ok .encEnd) ∧
    (w &&& 0x700#11 = 0x500#11 ↔ decode (.cw w) = .ok (.decByte (w.extractLsb' 0 8)))

/-- Every instruction is read back from what the encoder presents for it, with every operand it can have. -/
def Obligations.DecodeAfterEncode : Prop :=
  ∀ i : Instr, decode (encode i) = .ok i

/-- Each command word has one meaning: what it decodes to is encoded as that word. -/
def Obligations.EncodeAfterDecodeOfWords : Prop :=
  ∀ (w : CommandWord) (i : Instr), decode (.cw w) = .ok i → encode i = .cw w

/-- The PSEUDO rows of the opcode table: the words of a pseudo-operation's expansion (30_encoding.md rule R65) spell that
pseudo-operation and no other, whatever its byte operands. -/
def Obligations.PseudoOperationWordsRoundTrip : Prop :=
  (∀ bs : List Byte, decodeSequence (commandWords (.crc16 bs)) = some (.crc16 bs)) ∧
  (∀ (r : Int) (p : List Int), (Instr.encode r p).wellFormed = true →
    decodeSequence (commandWords (.encode r p)) = some (.encode r p)) ∧
  (∀ b0 b1 b2 b3 : Byte, decodeSequence (commandWords (.decode b0 b1 b2 b3)) = some (.decode b0 b1 b2 b3))

/-! ### The generator -/

/-- 40_crc.md rule R76, in numbers: shift left by one, cut to 16 bits, and XOR 0x1021 when bit 15 was 1. -/
def Obligations.CrcBitShiftStep : Prop :=
  ∀ c : Crc,
    (32768 ≤ c.toNat → (crcBit c).toNat = ((2 * c.toNat) % 65536) ^^^ 0x1021) ∧
    (c.toNat < 32768 → (crcBit c).toNat = 2 * c.toNat)

/-- 40_crc.md rule R77: a byte enters at the top 8 bits and eight shift steps follow, and the rule's equal bit-serial
statement, bit 7 first (the reading of the algorithm's name: notes/assumptions/1.md). -/
def Obligations.CrcByteEqualsBitSerialForm : Prop :=
  ∀ (c : Crc) (b : Byte),
    crcByte c b =
      crcBit (crcBit (crcBit (crcBit (crcBit (crcBit (crcBit (crcBit (c ^^^ (b.setWidth 16 <<< 8))))))))) ∧
    crcByte c b =
      [7, 6, 5, 4, 3, 2, 1, 0].foldl
        (fun (a : Crc) (k : Nat) => if (a.getLsbD 15 ^^ b.getLsbD k) then (a <<< 1) ^^^ 0x1021#16 else a <<< 1) c

/-- 40_crc.md rule R75: the CRC of a message starts at 0x0000, absorbs the bytes in order with crc16_byte, and is the
accumulator as it stands. -/
def Obligations.CrcOfMessageAbsorbsInOrder : Prop :=
  crc16 [] = 0x0000#16 ∧ ∀ (s : List Byte) (b : Byte), crc16 (s ++ [b]) = crcByte (crc16 s) b

/-- 40_crc.md section 2: the table form equals the bit form, with the 256 entries the spec prints. -/
def Obligations.CrcTableFormEqualsBitForm : Prop :=
  crcTable.length = 256 ∧ ∀ (c : Crc) (b : Byte), crcByteByTable c b = crcByte c b

/-- 40_crc.md section 3, items 3, 4, 5: incremental, and leading zero bytes are invisible. -/
def Obligations.CrcIncrementalAndLeadingZeros : Prop :=
  (∀ s t : List Byte, crc16 (s ++ t) = t.foldl crcByte (crc16 s)) ∧
  (∀ (n : Nat) (s : List Byte), crc16 (List.replicate n 0x00#8 ++ s) = crc16 s)

/-- 40_crc.md section 3, item 6: XOR-linear on messages of equal length. -/
def Obligations.CrcXorLinear : Prop :=
  ∀ s t : List Byte, s.length = t.length → crc16 (List.zipWith (· ^^^ ·) s t) = crc16 s ^^^ crc16 t

/-- 40_crc.md section 3, item 7: on two-byte messages crc16 is a bijection. -/
def Obligations.CrcBijectiveOnTwoBytes : Prop :=
  (∀ a b a' b' : Byte, crc16 [a, b] = crc16 [a', b'] → a = a' ∧ b = b') ∧
  (∀ c : Crc, ∃ a b : Byte, crc16 [a, b] = c)

/-- 40_crc.md section 3 (rule R81): the CRC of a message with its checksum appended high byte first is zero; appended low
byte first, as this block does, it is generally not: the rule's example leaves 0x76CE. -/
def Obligations.CrcResidueHighByteFirst : Prop :=
  (∀ s : List Byte, crc16 (s ++ [(crc16 s).extractLsb' 8 8, (crc16 s).extractLsb' 0 8]) = 0x0000#16) ∧
  crc16 [0x10#8, 0x00#8, 0x73#8, 0x03#8] = 0x76CE#16

/-! ### The commands -/

/-- 40_crc.md rule R82: CRC_CLR, whole. -/
def Obligations.CrcClrCommand : Prop :=
  (∀ s : State,
    (s.block.fSeq = true ∨ s.block.fIll = true → exec .crcClr s = .next s) ∧
    (s.block.fSeq = false → s.block.fIll = false → s.block.phase ≠ .idle →
      exec .crcClr s = .next { s with block := { s.block with fSeq := true } }) ∧
    (s.block.fSeq = false → s.block.fIll = false → s.block.phase = .idle →
      exec .crcClr s = .next { s with block := { s.block with crc := 0x0000#16 } })) ∧
  decode (.cw 0x000#11) = .ok .crcClr ∧
  ∀ w : CommandWord, 0x001 ≤ w.toNat → w.toNat ≤ 0x0FF → decode (.cw w) = .error .crcClrWithOperand

/-- 40_crc.md rule R83: CRC_BYTE, whole. -/
def Obligations.CrcByteCommand : Prop :=
  ∀ (d : Byte) (s : State),
    (s.block.fSeq = true ∨ s.block.fIll = true → exec (.crcByte d) s = .next s) ∧
    (s.block.fSeq = false → s.block.fIll = false → s.block.phase ≠ .idle →
      exec (.crcByte d) s = .next { s with block := { s.block with fSeq := true } }) ∧
    (s.block.fSeq = false → s.block.fIll = false → s.block.phase = .idle →
      exec (.crcByte d) s = .next { s with block := { s.block with crc := crcByte s.block.crc d } }) ∧
    decode (.cw (0x100#11 ||| d.setWidth 11)) = .ok (.crcByte d)

/-- 41_encode.md rule R95: ENC_START, whole. -/
def Obligations.EncStartCommand : Prop :=
  ∀ (d : Byte) (s : State),
    (s.block.fSeq = true ∨ s.block.fIll = true → exec (.encStart d) s = .next s) ∧
    (s.block.fSeq = false → s.block.fIll = false → s.block.phase ≠ .idle →
      exec (.encStart d) s = .next { s with block := { s.block with fSeq := true } }) ∧
    (s.block.fSeq = false → s.block.fIll = false → s.block.phase = .idle →
      exec (.encStart d) s = .next { s with block :=
        { s.block with txbuf := [d], txv := false, crc := crcByte 0x0000#16 d, phase := .enc } }) ∧
    decode (.cw (0x200#11 ||| d.setWidth 11)) = .ok (.encStart d)

/-- 41_encode.md section 2 (rule R96): ENC_DATA, whole, on the block under every MAX_PAYLOAD `m` (`none` is unbounded). The two
clauses about `exec` say that the instruction is this at `Config.maxPayload`; that the machine supplies this constant, and its
value, are the model's choice (DESIGN CHOICE: notes/assumptions/3.md). -/
def Obligations.EncDataCommand : Prop :=
  ∀ d : Byte,
    (∀ (m : Option Nat) (b : Block),
      (b.fSeq = true ∨ b.fIll = true → b.execute m (.encData d) = b) ∧
      (b.fSeq = false → b.fIll = false → b.phase ≠ .enc → b.execute m (.encData d) = { b with fSeq := true }) ∧
      (∀ n, b.fSeq = false → b.fIll = false → b.phase = .enc → m = some n → n + 1 ≤ b.txbuf.length →
        b.execute m (.encData d) = { b with fSeq := true }) ∧
      (b.fSeq = false → b.fIll = false → b.phase = .enc → (∀ n, m = some n → b.txbuf.length < n + 1) →
        b.execute m (.encData d) = { b with txbuf := b.txbuf ++ [d], crc := crcByte b.crc d })) ∧
    (∀ s : State, exec (.encData d) s = .next { s with block := s.block.execute Config.maxPayload (.encData d) }) ∧
    (∀ s : State, s.block.fSeq = false → s.block.fIll = false → s.block.phase = .enc →
      (∀ n, Config.maxPayload = some n → s.block.txbuf.length < n + 1) →
      exec (.encData d) s = .next { s with block :=
        { s.block with txbuf := s.block.txbuf ++ [d], crc := crcByte s.block.crc d } }) ∧
    decode (.cw (0x300#11 ||| d.setWidth 11)) = .ok (.encData d)

/-- 41_encode.md rule R97: ENC_END, whole; the checksum bytes are not absorbed into `crc`. -/
def Obligations.EncEndCommand : Prop :=
  (∀ s : State,
    (s.block.fSeq = true ∨ s.block.fIll = true → exec .encEnd s = .next s) ∧
    (s.block.fSeq = false → s.block.fIll = false → s.block.phase ≠ .enc →
      exec .encEnd s = .next { s with block := { s.block with fSeq := true } }) ∧
    (s.block.fSeq = false → s.block.fIll = false → s.block.phase = .enc →
      exec .encEnd s = .next { s with block :=
        { s.block with
          txbuf := s.block.txbuf ++ [s.block.crc.extractLsb' 0 8, s.block.crc.extractLsb' 8 8]
          txv := true, phase := .idle } })) ∧
  decode (.cw 0x400#11) = .ok .encEnd ∧
  ∀ w : CommandWord, 0x401 ≤ w.toNat → w.toNat ≤ 0x4FF → decode (.cw w) = .error .encEndWithOperand

/-- 42_decode.md rule R110: DEC_BYTE, whole, by the number of bytes already taken. -/
def Obligations.DecByteCommand : Prop :=
  ∀ (d : Byte) (s : State),
    (s.block.fSeq = true ∨ s.block.fIll = true → exec (.decByte d) s = .next s) ∧
    (s.block.fSeq = false → s.block.fIll = false → s.block.phase = .enc →
      exec (.decByte d) s = .next { s with block := { s.block with fSeq := true } }) ∧
    (s.block.fSeq = false → s.block.fIll = false → s.block.phase ≠ .enc → s.block.idx = 0 →
      exec (.decByte d) s = .next { s with block :=
        { s.block with rCmd := d, crc := crcByte 0x0000#16 d, dv := false, fChk := false, phase := .dec, idx := 1 } }) ∧
    (s.block.fSeq = false → s.block.fIll = false → s.block.phase ≠ .enc → s.block.idx = 1 →
      exec (.decByte d) s = .next { s with block :=
        { s.block with rStatus := d, crc := crcByte s.block.crc d, idx := 2 } }) ∧
    (s.block.fSeq = false → s.block.fIll = false → s.block.phase ≠ .enc → s.block.idx = 2 →
      exec (.decByte d) s = .next { s with block := { s.block with rLo := d, idx := 3 } }) ∧
    (s.block.fSeq = false → s.block.fIll = false → s.block.phase ≠ .enc → s.block.idx = 3 →
      s.block.crc.toNat = s.block.rLo.toNat + 256 * d.toNat →
      exec (.decByte d) s = .next { s with block :=
        { s.block with
          resCmd := s.block.rCmd, resStatus := s.block.rStatus, dv := true, phase := .idle, idx := 0 } }) ∧
    (s.block.fSeq = false → s.block.fIll = false → s.block.phase ≠ .enc → s.block.idx = 3 →
      s.block.crc.toNat ≠ s.block.rLo.toNat + 256 * d.toNat →
      exec (.decByte d) s = .next { s with block := { s.block with fChk := true, phase := .idle, idx := 0 } }) ∧
    decode (.cw (0x500#11 ||| d.setWidth 11)) = .ok (.decByte d)

/-- 30_encoding.md rule R62 at the two reserved opcodes: IllegalCommand is their effect, `F_ILL` set and nothing else;
under a sticky fault nothing at all. -/
def Obligations.ReservedOpcodesAreIllegal : Prop :=
  ∀ (d : Byte) (s : State),
    (s.block.fSeq = false → s.block.fIll = false →
      exec (.reservedOp6 d) s = .next { s with block := { s.block with fIll := true } } ∧
      exec (.reservedOp7 d) s = .next { s with block := { s.block with fIll := true } }) ∧
    (s.block.fSeq = true ∨ s.block.fIll = true →
      exec (.reservedOp6 d) s = .next s ∧ exec (.reservedOp7 d) s = .next s)

/-- 10_state.md rule R15: the whole control flow. A row is the current `(phase, idx)`, a command, and either the next
`(phase, idx)` or none, a sequence fault that sets `F_SEQ` and changes nothing else; under a sticky fault every command is
ignored. On the block under every MAX_PAYLOAD `m`; `ExecIsTheBlockUnderMaxPayload` says that `exec` is this. -/
def Obligations.PhaseAndIdxTable : Prop :=
  ∀ (m : Option Nat) (b : Block) (d : Byte) (p : Phase) (k : Fin 4) (i : Instr) (cell : Option (Phase × Fin 4)),
    (p, k, i, cell) ∈
      [(Phase.idle, (0 : Fin 4), Instr.crcClr, some (Phase.idle, (0 : Fin 4))), (.idle, 0, .crcByte d, some (.idle, 0)),
        (.idle, 0, .encStart d, some (.enc, 0)), (.idle, 0, .encData d, none), (.idle, 0, .encEnd, none),
        (.idle, 0, .decByte d, some (.dec, 1)),
        (.enc, 0, .crcClr, none), (.enc, 0, .crcByte d, none), (.enc, 0, .encStart d, none),
        (.enc, 0, .encEnd, some (.idle, 0)), (.enc, 0, .decByte d, none),
        (.dec, 1, .crcClr, none), (.dec, 1, .crcByte d, none), (.dec, 1, .encStart d, none), (.dec, 1, .encData d, none),
        (.dec, 1, .encEnd, none), (.dec, 1, .decByte d, some (.dec, 2)),
        (.dec, 2, .crcClr, none), (.dec, 2, .crcByte d, none), (.dec, 2, .encStart d, none), (.dec, 2, .encData d, none),
        (.dec, 2, .encEnd, none), (.dec, 2, .decByte d, some (.dec, 3)),
        (.dec, 3, .crcClr, none), (.dec, 3, .crcByte d, none), (.dec, 3, .encStart d, none), (.dec, 3, .encData d, none),
        (.dec, 3, .encEnd, none), (.dec, 3, .decByte d, some (.idle, 0)),
        (.enc, 0, .encData d,
          match m with
          | none => some (.enc, 0)
          | some n => if n + 1 ≤ b.txbuf.length then none else some (.enc, 0))] →
    (b.fSeq = true ∨ b.fIll = true → b.execute m i = b) ∧
    (b.fSeq = false → b.fIll = false → b.phase = p → b.idx = k →
      match cell with
      | none => b.execute m i = { b with fSeq := true }
      | some (p', k') =>
        (b.execute m i).phase = p' ∧ (b.execute m i).idx = k' ∧ (b.execute m i).faulted = false)

/-! ### Faults, reset, and the machine as a whole -/

/-- 60_exceptions.md rule R132: under a sticky fault every instruction leaves every field of the block as it is, and so does
every input but RESET; only RESET clears the flags. -/
def Obligations.StickyFaultIgnoresEverythingButReset : Prop :=
  ∀ s : State, s.block.fSeq = true ∨ s.block.fIll = true →
    (∀ i : Instr, ∃ t, exec i s = .next t ∧ t.block = s.block) ∧
    (∀ (f : Form) (rest : List HostInput), s.inbox = .present f :: rest →
      ∃ t, step s = .next t ∧ t.block = s.block ∧ t.inbox = rest) ∧
    (∀ rest : List HostInput, s.inbox = .reset :: rest →
      ∃ t, step s = .next t ∧ t.block.fSeq = false ∧ t.block.fIll = false)

/-- 60_exceptions.md section 3: a sticky fault is judged first, then a reserved word, before the phase; and one command sets
at most one of `F_ILL`, `F_SEQ`, `F_CHK`. That the word is taken from `inbox` is the model's choice (notes/assumptions/2.md). -/
def Obligations.OrderOfJudgement : Prop :=
  ∀ (s : State) (w : CommandWord) (rest : List HostInput), s.inbox = .present (.cw w) :: rest →
    (s.block.fSeq = true ∨ s.block.fIll = true → step s = .next { s with inbox := rest }) ∧
    (s.block.fSeq = false → s.block.fIll = false →
      ((0x001 ≤ w.toNat ∧ w.toNat ≤ 0x0FF) ∨ (0x401 ≤ w.toNat ∧ w.toNat ≤ 0x4FF) ∨ 0x600 ≤ w.toNat) →
      step s = .next { s with inbox := rest, block := { s.block with fIll := true } }) ∧
    (∀ t, step s = .next t →
      ((!s.block.fIll && t.block.fIll).toNat + (!s.block.fSeq && t.block.fSeq).toNat +
        (!s.block.fChk && t.block.fChk).toNat ≤ 1))

/-- 30_encoding.md section B.4: how many of the 2048 words are reserved, the two reserved opcodes among them. -/
def Obligations.ReservedWordCount : Prop :=
  (((List.range 2048).map (fun n => decode (.cw (BitVec.ofNat 11 n)))).countP
    (fun
      | .error _ => true
      | .ok (.reservedOp6 _) => true
      | .ok (.reservedOp7 _) => true
      | .ok _ => false)) = 1022

/-- 10_state.md rule R22: the value of every field of the block at `State.reset`, and after RESET of any state. -/
def Obligations.ResetValues : Prop :=
  ∀ b : Block, (b = State.reset.block ∨ ∃ s : State, b = s.applyReset.block) →
    b.crc = 0x0000#16 ∧ b.phase = .idle ∧ b.idx = 0 ∧ b.rCmd = 0x00#8 ∧ b.rStatus = 0x00#8 ∧ b.rLo = 0x00#8 ∧
    b.resCmd = 0x00#8 ∧ b.resStatus = 0x00#8 ∧ b.dv = false ∧ b.fChk = false ∧ b.txv = false ∧
    b.fSeq = false ∧ b.fIll = false ∧ b.txbuf = []

/-- 70_reset_and_hazards.md section 1: RESET restores the whole block from any state, whatever is open or faulted. That RESET
arrives through `inbox` and leaves the later inputs alone is the model's choice (notes/assumptions/2.md, 12.md). -/
def Obligations.ResetEventRestoresBlock : Prop :=
  ∀ (s : State) (rest : List HostInput), s.inbox = .reset :: rest →
    step s = .next { s with inbox := rest, block := State.reset.block }

/-- A step runs the decoded instruction, at the state whose next input has been taken; a word that decodes to nothing is an
IllegalCommand; with nothing presented the block waits. The `inbox` is the model's choice (notes/assumptions/2.md). -/
def Obligations.StepRunsDecodedInstruction : Prop :=
  (∀ (s : State) (f : Form) (rest : List HostInput) (i : Instr), s.inbox = .present f :: rest → decode f = .ok i →
    step s = exec i { s with inbox := rest }) ∧
  (∀ (s : State) (f : Form) (rest : List HostInput) (e : DecodeError), s.inbox = .present f :: rest →
    decode f = .error e → s.block.fSeq = false → s.block.fIll = false →
    step s = .next { s with inbox := rest, block := { s.block with fIll := true } }) ∧
  (∀ s : State, s.inbox = [] → step s = .next s)

/-- No step of the machine stops: every abnormal outcome is a next state (60_exceptions.md sections 1 and 4). -/
def Obligations.NoStepStops : Prop :=
  (∀ s : State, ∃ t, step s = .next t) ∧ (∀ (i : Instr) (s : State), ∃ t, exec i s = .next t)

/-- Inputs are taken one a step and in order, and the block makes its own step with the one taken (20_memory.md section 5,
10_state.md section 1). That the inputs stand in `inbox`, and the MAX_PAYLOAD supplied, are the model's choices
(notes/assumptions/2.md, 3.md). -/
def Obligations.InputsTakenInOrder : Prop :=
  ∀ s t : State, step s = .next t →
    t.inbox = s.inbox.tail ∧
    t.block =
      match s.inbox with
      | [] => s.block
      | x :: _ => s.block.step Config.maxPayload x

/-- The invariants of 10_state.md section 10 hold of the reset state, under every MAX_PAYLOAD. That the machine's
invariant is taken at `Config.maxPayload` is the model's choice (notes/assumptions/3.md). -/
def Obligations.InvariantAtReset : Prop := (∀ m : Option Nat, Block.reset.Inv m) ∧ State.reset.Inv

/-- Every step keeps the invariants of 10_state.md section 10 and the capacity of the buffer, from any state that has them: the
block's own step under every MAX_PAYLOAD, and the machine's. That the machine's
invariant is taken at `Config.maxPayload` is the model's choice (notes/assumptions/3.md). -/
def Obligations.StepKeepsInvariant : Prop :=
  (∀ (m : Option Nat) (x : HostInput) (b : Block), b.Inv m → (b.step m x).Inv m) ∧
  (∀ s t : State, s.Inv → step s = .next t → t.Inv)

/-- 10_state.md section 10, item 7: when a DEC_BYTE makes `DV` 1, the checksum received with the delivered pair equals the
pair's CRC; from a state that has the invariants. That the machine's
invariant is taken at `Config.maxPayload` is the model's choice (notes/assumptions/3.md). -/
def Obligations.DecodeValidMeansChecksumMatched : Prop :=
  ∀ (s t : State) (d : Byte), s.Inv → exec (.decByte d) s = .next t → s.block.dv = false → t.block.dv = true →
    (crc16 [t.block.resCmd, t.block.resStatus]).toNat = s.block.rLo.toNat + 256 * d.toNat

/-- 10_state.md section 1, column "written by": each field is changed only by the instructions that the column names (a
frame or a pseudo-operation counts as the commands it issues). -/
def Obligations.OnlyNamedCommandsWriteEachField : Prop :=
  ∀ (i : Instr) (s t : State), exec i s = .next t →
    ((∀ d, i ≠ .decByte d) → (∀ a b c, i ≠ .status a b c) → (∀ a b c d, i ≠ .decode a b c d) →
      t.block.idx = s.block.idx ∧ t.block.rCmd = s.block.rCmd ∧ t.block.rStatus = s.block.rStatus ∧
      t.block.rLo = s.block.rLo ∧ t.block.resCmd = s.block.resCmd ∧ t.block.resStatus = s.block.resStatus ∧
      t.block.dv = s.block.dv ∧ t.block.fChk = s.block.fChk) ∧
    (i = .crcClr ∨ (∃ d, i = .crcByte d) ∨ (∃ bs, i = .crc16 bs) ∨ (∃ d, i = .decByte d) ∨ (∃ a b c, i = .status a b c) ∨
        (∃ a b c d, i = .decode a b c d) ∨ (∃ d, i = .reservedOp6 d) ∨ (∃ d, i = .reservedOp7 d) →
      t.block.txbuf = s.block.txbuf ∧ t.block.txv = s.block.txv) ∧
    ((∃ d, i = .encData d) → t.block.txv = s.block.txv ∧ t.block.phase = s.block.phase) ∧
    (i = .encEnd ∨ (∃ d, i = .reservedOp6 d) ∨ (∃ d, i = .reservedOp7 d) → t.block.crc = s.block.crc) ∧
    (i = .crcClr ∨ (∃ d, i = .crcByte d) ∨ (∃ bs, i = .crc16 bs) ∨ (∃ d, i = .reservedOp6 d) ∨ (∃ d, i = .reservedOp7 d) →
      t.block.phase = s.block.phase) ∧
    ((∀ d, i ≠ .reservedOp6 d) → (∀ d, i ≠ .reservedOp7 d) → t.block.fIll = s.block.fIll) ∧
    (s.block.fSeq = true → t.block.fSeq = true) ∧ (s.block.fIll = true → t.block.fIll = true)

/-! ### What the host observes -/

/-- 10_state.md rule R20: the bits of `SR`, and its reset value. -/
def Obligations.StatusRegisterBits : Prop :=
  Block.reset.sr = 0x00#8 ∧ ∀ b : Block,
    b.sr.extractLsb' 0 2 = (match b.phase with | .idle => 0b00#2 | .enc => 0b01#2 | .dec => 0b10#2) ∧
    b.sr.getLsbD 2 = b.dv ∧ b.sr.getLsbD 3 = b.fChk ∧ b.sr.getLsbD 4 = b.txv ∧ b.sr.getLsbD 5 = b.fSeq ∧
    b.sr.getLsbD 6 = b.fIll ∧ b.sr.getLsbD 7 = false

/-- 10_state.md section 7: what the host observes is `SR`, `CRC`, `RES` and `TXBUF`, and neither the latches nor `idx` are
among it. -/
def Obligations.PortsHideLatches : Prop :=
  ∀ (b : Block) (x y z : Byte) (k : Fin 4),
    ({ b with rCmd := x, rStatus := y, rLo := z, idx := k } : Block).ports = b.ports ∧
    b.ports.crc = b.crc ∧ b.ports.txbuf = b.txbuf ∧
    b.ports.res.toNat = b.resCmd.toNat + 256 * b.resStatus.toNat

/-! ### The transaction level -/

/-- 41_encode.md rule R91: `to_byte`. -/
def Obligations.ToByteFitsOrFails : Prop :=
  ∀ v : Int,
    (0 ≤ v → v ≤ 255 → ∃ b : Byte, toByte v = .ok b ∧ (b.toNat : Int) = v) ∧
    (v < 0 ∨ 255 < v → toByte v = .error .validationError)

/-- 41_encode.md section 1 (rules R92, R94): validation is all-or-nothing, over the register and every payload element. -/
def Obligations.EncodeValidatesEverything : Prop :=
  ∀ (r : Int) (p : List Int),
    (encodeFrame r p = .error .validationError ↔ ∃ v ∈ r :: p, v < 0 ∨ 255 < v) ∧
    (∀ e, encodeFrame r p = .error e → e = .validationError)

/-- 41_encode.md rule R90: the frame, byte by byte, or a ValidationError and no byte. -/
def Obligations.EncodedFrameLayout : Prop :=
  (∀ (r : Byte) (p : List Byte),
    ∃ f, encodeFrame (r.toNat : Int) (p.map fun b => (b.toNat : Int)) = .ok f ∧
      f.length = p.length + 3 ∧ f[0]? = some r ∧
      (∀ k, k < p.length → f[1 + k]? = p[k]?) ∧
      (∃ lo hi : Byte, f[p.length + 1]? = some lo ∧ f[p.length + 2]? = some hi ∧
        (crc16 (r :: p)).toNat = lo.toNat + 256 * hi.toNat)) ∧
  (∀ (r : Int) (p : List Int), (∃ v ∈ r :: p, v < 0 ∨ 255 < v) → encodeFrame r p = .error .validationError)

/-- 42_decode.md section 1 (rule R108): every frame the encoder returns passes the check, and a one-byte payload decodes to
itself. -/
def Obligations.EncodedFrameVerifies : Prop :=
  (∀ (r : Int) (p : List Int) (f : List Byte), encodeFrame r p = .ok f → frameOk f = true) ∧
  (∀ a b : Byte, ∃ f2 f3, encodeFrame (a.toNat : Int) [(b.toNat : Int)] = .ok [a, b, f2, f3] ∧
    decodeStatus a b f2 f3 = .ok (a, b))

/-- 42_decode.md rule R105: the decoder compares the recomputed checksum with the received one, all 16 bits, and looks at
nothing else. -/
def Obligations.DecodeStatusComparesChecksum : Prop :=
  ∀ f0 f1 f2 f3 : Byte,
    ((crc16 [f0, f1]).toNat = f2.toNat + 256 * f3.toNat → decodeStatus f0 f1 f2 f3 = .ok (f0, f1)) ∧
    ((crc16 [f0, f1]).toNat ≠ f2.toNat + 256 * f3.toNat → decodeStatus f0 f1 f2 f3 = .error .checksumError)

/-- 42_decode.md section 1 (rule R107): `decode_status` succeeds exactly on the four-byte frames that pass `frame_ok`. -/
def Obligations.DecodeStatusIsFrameOk : Prop :=
  ∀ f0 f1 f2 f3 : Byte, decodeStatus f0 f1 f2 f3 = .ok (f0, f1) ↔ frameOk [f0, f1, f2, f3] = true

/-- 42_decode.md section 3 (rule R114): a corruption confined to the first two bytes or to the last two bytes of a passing
frame is caught, and so is every corruption of one bit or of two bits of a passing frame with `cmd_id` 0x10. -/
def Obligations.DetectionStrength : Prop :=
  (∀ a b a' b' lo hi : Byte, decodeStatus a b lo hi = .ok (a, b) → (a', b') ≠ (a, b) →
    decodeStatus a' b' lo hi = .error .checksumError) ∧
  (∀ a b lo hi lo' hi' : Byte, decodeStatus a b lo hi = .ok (a, b) → (lo', hi') ≠ (lo, hi) →
    decodeStatus a b lo' hi' = .error .checksumError) ∧
  (∀ (st lo hi : Byte) (e : BitVec 32),
    decodeStatus 0x10#8 st lo hi = .ok (0x10#8, st) →
    ((∃ j : Fin 32, e = 1#32 <<< j.val) ∨ (∃ j k : Fin 32, j ≠ k ∧ e = (1#32 <<< j.val) ||| (1#32 <<< k.val))) →
    decodeStatus (0x10#8 ^^^ e.extractLsb' 0 8) (st ^^^ e.extractLsb' 8 8) (lo ^^^ e.extractLsb' 16 8)
      (hi ^^^ e.extractLsb' 24 8) = .error .checksumError)

/-! ### The two levels agree -/

/-- 40_crc.md section 4 (rule R84): CRC16 leaves `crc16` of its bytes in `crc` and every other field of the block unchanged.
That the call returns this value to the host is the model's choice (notes/assumptions/4.md). -/
def Obligations.Crc16Transaction : Prop :=
  ∀ (bs : List Byte) (s : State), s.block.phase = .idle → s.block.fSeq = false → s.block.fIll = false →
    exec (.crc16 bs) s = .next { s with block := { s.block with crc := crc16 bs } } ∧
    ∀ m : Option Nat, (s.block.call m (.crc16 bs)).2 = some (.crc (crc16 bs))

/-- 41_encode.md section 2 (rule R98): ENCODE ends with the frame of the function `encode` in `txbuf` and returns it; on a
ValidationError it returns that and no field of the block changes, from any state. On the block under every MAX_PAYLOAD `m`,
and as the instruction at the one the machine supplies. How a value is returned is the model's choice
(notes/assumptions/3.md, 4.md). -/
def Obligations.EncodeTransaction : Prop :=
  ∀ (r : Int) (p : List Int) (s : State),
    (∀ f, s.block.phase = .idle → s.block.fSeq = false → s.block.fIll = false → encodeFrame r p = .ok f →
      ∃ body : List Byte, body.map (fun b => (b.toNat : Int)) = r :: p ∧
        f = body ++ [(crc16 body).extractLsb' 0 8, (crc16 body).extractLsb' 8 8] ∧
        (∀ m : Option Nat, (∀ n, m = some n → p.length ≤ n) →
          s.block.call m (.encode r p) =
            ({ s.block with txbuf := f, txv := true, crc := crc16 body, phase := .idle }, some (.frame f))) ∧
        ((∀ n, Config.maxPayload = some n → p.length ≤ n) →
          exec (.encode r p) s = .next { s with
            block := { s.block with txbuf := f, txv := true, crc := crc16 body, phase := .idle } })) ∧
    (encodeFrame r p = .error .validationError →
      (∀ m : Option Nat, s.block.call m (.encode r p) = (s.block, some (.error .validationError))) ∧
      exec (.encode r p) s = .next s)

/-- 41_encode.md section 2 (rules R96, R98): a payload longer than MAX_PAYLOAD is a sequence fault, the frame stays open,
`TXV` stays 0, and no frame is returned. On the block under every finite MAX_PAYLOAD (notes/assumptions/3.md, 4.md). -/
def Obligations.EncodePastMaxPayload : Prop :=
  ∀ (r : Byte) (p : List Byte) (n : Nat) (b : Block),
    b.phase = .idle → b.fSeq = false → b.fIll = false → n < p.length →
    b.call (some n) (.encode (r.toNat : Int) (p.map fun x => (x.toNat : Int))) =
      ({ b with txbuf := r :: p.take n, txv := false, crc := crc16 (r :: p.take n), phase := .enc, fSeq := true }, none)

/-- The six request frames of 30_encoding.md rule R48, each with its own register byte: built like ENCODE, for every payload.
On the block under every MAX_PAYLOAD `m`, and as the instruction at the one the machine supplies. How a value is returned and
the reading of a request row as its ENCODE call are the model's choice (notes/assumptions/3.md, 4.md, 7.md). -/
def Obligations.RequestFrames : Prop :=
  ∀ (mk : List Int → Instr) (id : Byte) (s : State),
    (mk, id) ∈ [(Instr.brightness, 0x20#8), (Instr.rotate, 0x30#8), (Instr.power, 0x31#8), (Instr.maxIdx, 0x32#8),
      (Instr.idxStep, 0x33#8), (Instr.driveMode, 0x34#8)] →
    (∀ (p f : List Byte) (c : Block), s.block.phase = .idle → s.block.fSeq = false → s.block.fIll = false →
      f = (id :: p) ++ [(crc16 (id :: p)).extractLsb' 0 8, (crc16 (id :: p)).extractLsb' 8 8] →
      c = { s.block with txbuf := f, txv := true, crc := crc16 (id :: p), phase := .idle } →
      (∀ m : Option Nat, (∀ n, m = some n → p.length ≤ n) →
        s.block.call m (mk (p.map fun b => (b.toNat : Int))) = (c, some (.frame f))) ∧
      ((∀ n, Config.maxPayload = some n → p.length ≤ n) →
        exec (mk (p.map fun b => (b.toNat : Int))) s = .next { s with block := c })) ∧
    (∀ p : List Int, (∃ v ∈ p, v < 0 ∨ 255 < v) →
      (∀ m : Option Nat, s.block.call m (mk p) = (s.block, some (.error .validationError))) ∧
      exec (mk p) s = .next s)

/-- 42_decode.md section 2 (rule R113): DECODE, and the STATUS frame as the DECODE of its four bytes, end with the result of
the function `decode_status` in the flags and result registers, and return it. How a value is returned and the reading of the
STATUS row are the model's choice (notes/assumptions/4.md, 9.md). -/
def Obligations.DecodeTransaction : Prop :=
  ∀ (b0 b1 b2 b3 : Byte) (i : Instr) (s : State),
    i = .decode b0 b1 b2 b3 ∨ (b0 = 0x10#8 ∧ i = .status b1 b2 b3) →
    s.block.phase = .idle → s.block.idx = 0 → s.block.fSeq = false → s.block.fIll = false →
    (decodeStatus b0 b1 b2 b3 = .ok (b0, b1) →
      exec i s = .next { s with
        block := { s.block with
          crc := crc16 [b0, b1], phase := .idle, idx := 0, rCmd := b0, rStatus := b1, rLo := b2
          resCmd := b0, resStatus := b1, dv := true, fChk := false } } ∧
      ∀ m : Option Nat, (s.block.call m i).2 = some (.status b0 b1)) ∧
    (decodeStatus b0 b1 b2 b3 = .error .checksumError →
      exec i s = .next { s with
        block := { s.block with
          crc := crc16 [b0, b1], phase := .idle, idx := 0, rCmd := b0, rStatus := b1, rLo := b2
          dv := false, fChk := true } } ∧
      ∀ m : Option Nat, (s.block.call m i).2 = some (.error .checksumError))

/-- 00_scope.md section 3, 30_encoding.md section B.5: the two levels are equal. From every state, open and faulted ones
included, presenting the command words of a well-formed instruction one at a time ends exactly where the instruction does in
one step: on the block under every MAX_PAYLOAD, and on the machine. That a pseudo-operation is one step, that inputs stand in
`inbox`, and that a pseudo-operation begun in an open or faulted state runs its expansion all the same are the model's choices
(notes/assumptions/5.md, 2.md, 6.md). -/
def Obligations.InstructionsEqualTheirCommandWords : Prop :=
  ∀ i : Instr, i.wellFormed = true →
    (∀ (m : Option Nat) (b : Block),
      Block.run m ((commandWords i).map fun w => HostInput.present (.cw w)) b = b.execute m i) ∧
    (∀ (s : State) (rest : List HostInput),
      Host.Core.run Sys2Proof.core (commandWords i).length
        ({ s with inbox := (commandWords i).map (fun w => HostInput.present (.cw w)) ++ rest } : State) =
      exec i { s with inbox := rest })

/-- 41_encode.md and 42_decode.md (rules R98, R113): purity. Two idle, fault-free blocks with whatever history end a same
ENCODE with the same frame, and a same DECODE with the same flags and, when it passed, the same pair; under every MAX_PAYLOAD
that the payload fits. That a call also returns its outcome, whose equality both parts claim, is the model's choice
(notes/assumptions/4.md). -/
def Obligations.TransactionsIgnoreHistory : Prop :=
  ∀ (m : Option Nat) (b b' c c' : Block) (o o' : Option Reply),
    b.phase = .idle → b.idx = 0 → b.faulted = false → b'.phase = .idle → b'.idx = 0 → b'.faulted = false →
    (∀ (r : Int) (p : List Int), (Instr.encode r p).wellFormed = true → (∀ n, m = some n → p.length ≤ n) →
      b.call m (.encode r p) = (c, o) → b'.call m (.encode r p) = (c', o') →
      c.txbuf = c'.txbuf ∧ c.crc = c'.crc ∧ c.txv = c'.txv ∧ c.phase = c'.phase ∧ o = o') ∧
    (∀ b0 b1 b2 b3 : Byte,
      b.call m (.decode b0 b1 b2 b3) = (c, o) → b'.call m (.decode b0 b1 b2 b3) = (c', o') →
      c.dv = c'.dv ∧ c.fChk = c'.fChk ∧ c.crc = c'.crc ∧ c.phase = c'.phase ∧ c.idx = c'.idx ∧ o = o' ∧
      (c.dv = true → c.resCmd = c'.resCmd ∧ c.resStatus = c'.resStatus))

/-! ### Payload layouts and the host contract -/

/-- 30_encoding.md rule R52: the ROTATE payload of a step count, its worked example, and the ValidationError of a magnitude
of 65536 or more. -/
def Obligations.RotatePayloadLayout : Prop :=
  (∀ delta : Int, delta ≠ 0 → delta.natAbs < 65536 →
    ∃ dir lo hi : Byte, toBytes (rotatePayload delta) = .ok [dir, lo, hi] ∧
      (dir = 1#8 ↔ delta < 0) ∧ (dir = 0#8 ↔ 0 < delta) ∧ delta.natAbs = lo.toNat + 256 * hi.toNat) ∧
  (∀ delta : Int, 65536 ≤ delta.natAbs → encodeFrame 0x30 (rotatePayload delta) = .error .validationError) ∧
  rotatePayload (-300) = [1, 0x2C, 0x01]

/-- 30_encoding.md section A.4 (rule R54): the BRIGHTNESS payload of k pairs has 2k elements, element 2j the channel and element
2j+1 the brightness of the j-th pair. -/
def Obligations.BrightnessPayloadLayout : Prop :=
  ∀ pairs : List (Int × Int),
    (brightnessPayload pairs).length = 2 * pairs.length ∧
    ∀ j, (brightnessPayload pairs)[2 * j]? = (pairs[j]?).map Prod.fst ∧
      (brightnessPayload pairs)[2 * j + 1]? = (pairs[j]?).map Prod.snd

/-- 60_exceptions.md sections 3 and 7 (rules R129, R138, R139): what the host does with one response, in the order checksum,
`cmd_id`, `status`. That a WRONG_CHECKSUM resends when no frame is cached is the model's choice (notes/assumptions/22.md). -/
def Obligations.HostDecisionOnResponse : Prop :=
  (∀ f : List Byte, decidePoll (some f) (some (.error .checksumError)) = .resend) ∧
  decidePoll none (some (.error .checksumError)) = .finish .checksumError ∧
  ∀ (cached : Option (List Byte)) (c st : Byte),
    (c ≠ 0x10#8 → decidePoll cached (some (.status c st)) = .finish .protocolMismatchError) ∧
    (c = 0x10#8 →
      decidePoll cached (some (.status c st)) =
        match st.toNat with
        | 0 => .finish .ok
        | 1 => .resend
        | 2 => .finish .commandRejected
        | 3 => .continuePolling
        | 4 => .finish .commandRejected
        | _ => .finish .unknownStatus)

/-- 60_exceptions.md section 7 (rule R141): at most `max_attempts` responses are read in one call, and a resend adds none. -/
def Obligations.ReadsBoundedByAttempts : Prop :=
  ∀ (m : Option Nat) (q : SendRequest) (rs : List Response) (b : Block),
    countReads (sendAndConfirm m q rs b).2.1 ≤ q.maxAttempts

/-- 60_exceptions.md section 7 (rule R141): NOT_READY for k < `max_attempts` polls and then SUCCESS returns success after one
write and k+1 reads; NOT_READY for all of them is a TimeoutError after one write; from an idle, fault-free block. -/
def Obligations.NotReadyThenSuccessOrTimeout : Prop :=
  ∀ (m : Option Nat) (q : SendRequest) (rest : List Response) (k : Nat) (f : List Byte) (b : Block),
    b.phase = .idle → b.idx = 0 → b.faulted = false →
    (∀ n, m = some n → q.payload.length ≤ n) → encodeFrame q.register q.payload = .ok f → q.dryRun = false →
    (k < q.maxAttempts →
      ∃ ev c, sendAndConfirm m q
          (List.replicate k ⟨0x10#8, 0x03#8, 0x10#8, 0x33#8⟩ ++ ⟨0x10#8, 0x00#8, 0x73#8, 0x03#8⟩ :: rest) b = (.ok, ev, c) ∧
        countWrites ev = 1 ∧ countReads ev = k + 1 ∧ c.txbuf = f) ∧
    (∃ ev c, sendAndConfirm m q (List.replicate q.maxAttempts ⟨0x10#8, 0x03#8, 0x10#8, 0x33#8⟩) b = (.timeoutError, ev, c) ∧
      countWrites ev = 1 ∧ countReads ev = q.maxAttempts ∧ c.txbuf = f)

/-- 60_exceptions.md section 7 (rules R136, R142): a dry run records the frame, touches no bus, and has the outcome of a live
call that reads SUCCESS first; a ValidationError ends the call before any bus event, in either mode. That the record is an
event, that every device index has an address, and that no delay stands before the first read is the model's choice
(notes/assumptions/17.md, 21.md, 24.md). -/
def Obligations.DryRunAndValidationTouchNoBus : Prop :=
  ∀ (m : Option Nat) (q : SendRequest) (rest : List Response) (b : Block),
    (∀ f, b.phase = .idle → b.idx = 0 → b.faulted = false →
      (∀ n, m = some n → q.payload.length ≤ n) → encodeFrame q.register q.payload = .ok f →
      (∃ c, sendAndConfirm m { q with dryRun := true } rest b = (.ok, [.record f], c) ∧ c.txbuf = f) ∧
      (1 ≤ q.maxAttempts →
        ∃ ev c, sendAndConfirm m { q with dryRun := false } (⟨0x10#8, 0x00#8, 0x73#8, 0x03#8⟩ :: rest) b = (.ok, ev, c) ∧
          ev = [.select (Config.deviceAddress q.deviceIndex), .write f, .read 0x10#8 0x00#8 0x73#8 0x03#8])) ∧
    (encodeFrame q.register q.payload = .error .validationError →
      sendAndConfirm m q rest b = (.validationError, [], b))

/-! ### The block under its parameters, and the host's state machine -/

/-- 10_state.md section 1 (rule R10): the block has the rule's fields and no other, and what else a rule needs is an argument
of its step. Any run of the machine is a run of the block's own steps under the MAX_PAYLOAD supplied and the inputs, and leaves
nothing but the block and the inputs not yet taken. That a run takes these from `Config.maxPayload` and `inbox` is the model's
choice (notes/assumptions/2.md, 3.md). -/
def Obligations.MachineRunIsBlockRun : Prop :=
  ∀ (xs rest : List HostInput) (s : State),
    Host.Core.run Sys2Proof.core xs.length ({ s with inbox := xs ++ rest } : State) =
      .next ({ block := Block.run Config.maxPayload xs s.block, inbox := rest } : State)

/-- 60_exceptions.md section 7 (rule R144): the host's state machine. The terminal states stay; FailedRetryable is exactly the
checksum-invalid and the WRONG_CHECKSUM case of a poll with a cached frame, and returns to Polling. That an event leaves a
terminal state as it is, rather than being impossible there, is the model's choice (notes/assumptions/23.md). -/
def Obligations.HostStateMachine : Prop :=
  (∀ (q : TransportState) (e : TransportEvent), q.terminal = true → q.next e = q) ∧
  (∀ q : TransportState, q.terminal = true ↔ q = .succeeded ∨ q = .failedFatal ∨ q = .failedTimeout) ∧
  TransportState.sent.next .poll = .polling ∧ TransportState.failedRetryable.next .poll = .polling ∧
  TransportState.polling.next .exhausted = .failedTimeout ∧
  ∀ (f : List Byte) (c st : Byte),
    TransportState.polling.next (.decided (decidePoll (some f) (some (.error .checksumError)))) = .failedRetryable ∧
    (c ≠ 0x10#8 →
      TransportState.polling.next (.decided (decidePoll (some f) (some (.status c st)))) = .failedFatal) ∧
    (c = 0x10#8 →
      TransportState.polling.next (.decided (decidePoll (some f) (some (.status c st)))) =
        match st.toNat with
        | 0 => .succeeded
        | 1 => .failedRetryable
        | 3 => .polling
        | _ => .failedFatal)

/-- 60_exceptions.md section 7 (rules R136, R144): a live call that gets to write its frame starts in Sent, ends in the state
of its result, is in a terminal state only at the end, and goes from FailedRetryable to Polling, whatever the bus delivers.
Where a `reading` and a `blockStopped` result stand is the model's choice (notes/assumptions/17.md, 23.md). -/
def Obligations.CallEndsInTheStateOfItsResult : Prop :=
  ∀ (m : Option Nat) (q : SendRequest) (rs : List Response) (f : List Byte) (b : Block),
    b.phase = .idle → b.faulted = false → (∀ n, m = some n → q.payload.length ≤ n) →
    encodeFrame q.register q.payload = .ok f → q.dryRun = false →
    (sendStates m q rs b).head? = some .sent ∧
    (sendStates m q rs b).getLast? = some (sendAndConfirm m q rs b).1.state ∧
    (∀ (k : Nat) (p : TransportState), (sendStates m q rs b)[k]? = some p → p.terminal = true →
      k + 1 = (sendStates m q rs b).length) ∧
    (∀ k : Nat, (sendStates m q rs b)[k]? = some .failedRetryable → (sendStates m q rs b)[k + 1]? = some .polling)

/-- Every instruction, in every state, answers the next state in which the block is the block after that instruction under the
MAX_PAYLOAD which the machine supplies, and the inputs are untouched (10_state.md section 1). That value is the model's choice
(notes/assumptions/3.md). -/
def Obligations.ExecIsTheBlockUnderMaxPayload : Prop :=
  ∀ (i : Instr) (s : State), exec i s = .next { s with block := s.block.execute Config.maxPayload i }
end

