-- ==== Sys2Proof/Laws/BlockStep.lean ====
section
/-! SUPPORT. The small lemmas of the block's own step and run, and of the host's state machine. -/

namespace Sys2Proof.Machine

@[simp] theorem Block.step_reset (m : Option Nat) (b : Block) : b.step m .reset = Block.reset := rfl

theorem Block.step_present_ok {f : Form} {i : Instr} (h : decode f = .ok i) (m : Option Nat) (b : Block) :
    b.step m (.present f) = b.execute m i := by
  simp [Block.step, h]

theorem Block.step_present_error {f : Form} {e : DecodeError} (h : decode f = .error e) (m : Option Nat) (b : Block) :
    b.step m (.present f) = b.illegalCommand := by
  simp [Block.step, h]

@[simp] theorem Block.run_nil (m : Option Nat) (b : Block) : b.run m [] = b := rfl

@[simp] theorem Block.run_cons (m : Option Nat) (x : HostInput) (xs : List HostInput) (b : Block) :
    b.run m (x :: xs) = (b.step m x).run m xs := rfl

@[simp] theorem TransportState.next_sent_poll : TransportState.sent.next .poll = .polling := rfl
@[simp] theorem TransportState.next_failedRetryable_poll : TransportState.failedRetryable.next .poll = .polling := rfl
@[simp] theorem TransportState.next_polling_poll : TransportState.polling.next .poll = .polling := rfl
@[simp] theorem TransportState.next_polling_decided (d : PollDecision) :
    TransportState.polling.next (.decided d) = d.state := rfl
@[simp] theorem TransportState.next_polling_exhausted : TransportState.polling.next .exhausted = .failedTimeout := rfl

@[simp] theorem TransportState.trace_nil (q : TransportState) : q.trace [] = [q] := rfl
@[simp] theorem TransportState.trace_cons (q : TransportState) (e : TransportEvent) (es : List TransportEvent) :
    q.trace (e :: es) = q :: (q.next e).trace es := rfl

end Sys2Proof.Machine
end

