-- ==== Sys2Proof/Laws/Decode.lean ====
section
/-! SUPPORT. What the decoder of command words can answer. -/

namespace Sys2Proof

/-- A command word is rejected, or spells one of the eight CW rows of the opcode table with its low byte as operand
(30_encoding.md rules R60 to R62). -/
theorem decodeWord_cases (w : CommandWord) :
    (∃ e, decodeWord w = .error e) ∨ decodeWord w = .ok .crcClr ∨ decodeWord w = .ok (.crcByte (operandOf w)) ∨
    decodeWord w = .ok (.encStart (operandOf w)) ∨ decodeWord w = .ok (.encData (operandOf w)) ∨
    decodeWord w = .ok .encEnd ∨ decodeWord w = .ok (.decByte (operandOf w)) ∨
    decodeWord w = .ok (.reservedOp6 (operandOf w)) ∨ decodeWord w = .ok (.reservedOp7 (operandOf w)) := by
  cases h : decodeWord w with
  | error e => exact .inl ⟨e, rfl⟩
  | ok i =>
    unfold decodeWord at h
    split_ifs at h <;> simp only [Except.ok.injEq] at h <;> subst h <;> simp

end Sys2Proof
end

