-- ==== Sys2Proof/Laws/State.lean ====
section
/-! SUPPORT. One lemma per field per named update of the state: each is true by rfl and tagged for simp. -/

namespace Sys2Proof.Machine

@[simp] theorem State.onBlock_block (f : Block → Block) (s : State) : (s.onBlock f).block = f s.block := rfl
@[simp] theorem State.onBlock_inbox (f : Block → Block) (s : State) : (s.onBlock f).inbox = s.inbox := rfl

@[simp] theorem State.applyReset_block (s : State) : (s.applyReset).block = Block.reset := rfl
@[simp] theorem State.applyReset_inbox (s : State) : (s.applyReset).inbox = s.inbox := rfl

@[simp] theorem State.presentNext_block (x : HostInput) (s : State) : (s.presentNext x).block = s.block := rfl
@[simp] theorem State.presentNext_inbox (x : HostInput) (s : State) : (s.presentNext x).inbox = x :: s.inbox := rfl

@[simp] theorem Block.seqFault_crc (b : Block) : (b.seqFault).crc = b.crc := rfl
@[simp] theorem Block.seqFault_phase (b : Block) : (b.seqFault).phase = b.phase := rfl
@[simp] theorem Block.seqFault_idx (b : Block) : (b.seqFault).idx = b.idx := rfl
@[simp] theorem Block.seqFault_rCmd (b : Block) : (b.seqFault).rCmd = b.rCmd := rfl
@[simp] theorem Block.seqFault_rStatus (b : Block) : (b.seqFault).rStatus = b.rStatus := rfl
@[simp] theorem Block.seqFault_rLo (b : Block) : (b.seqFault).rLo = b.rLo := rfl
@[simp] theorem Block.seqFault_resCmd (b : Block) : (b.seqFault).resCmd = b.resCmd := rfl
@[simp] theorem Block.seqFault_resStatus (b : Block) : (b.seqFault).resStatus = b.resStatus := rfl
@[simp] theorem Block.seqFault_dv (b : Block) : (b.seqFault).dv = b.dv := rfl
@[simp] theorem Block.seqFault_fChk (b : Block) : (b.seqFault).fChk = b.fChk := rfl
@[simp] theorem Block.seqFault_txv (b : Block) : (b.seqFault).txv = b.txv := rfl
@[simp] theorem Block.seqFault_fSeq (b : Block) : (b.seqFault).fSeq = true := rfl
@[simp] theorem Block.seqFault_fIll (b : Block) : (b.seqFault).fIll = b.fIll := rfl
@[simp] theorem Block.seqFault_txbuf (b : Block) : (b.seqFault).txbuf = b.txbuf := rfl

@[simp] theorem Block.append_crc (d : Byte) (b : Block) : (b.append d).crc = b.crc := rfl
@[simp] theorem Block.append_phase (d : Byte) (b : Block) : (b.append d).phase = b.phase := rfl
@[simp] theorem Block.append_idx (d : Byte) (b : Block) : (b.append d).idx = b.idx := rfl
@[simp] theorem Block.append_rCmd (d : Byte) (b : Block) : (b.append d).rCmd = b.rCmd := rfl
@[simp] theorem Block.append_rStatus (d : Byte) (b : Block) : (b.append d).rStatus = b.rStatus := rfl
@[simp] theorem Block.append_rLo (d : Byte) (b : Block) : (b.append d).rLo = b.rLo := rfl
@[simp] theorem Block.append_resCmd (d : Byte) (b : Block) : (b.append d).resCmd = b.resCmd := rfl
@[simp] theorem Block.append_resStatus (d : Byte) (b : Block) : (b.append d).resStatus = b.resStatus := rfl
@[simp] theorem Block.append_dv (d : Byte) (b : Block) : (b.append d).dv = b.dv := rfl
@[simp] theorem Block.append_fChk (d : Byte) (b : Block) : (b.append d).fChk = b.fChk := rfl
@[simp] theorem Block.append_txv (d : Byte) (b : Block) : (b.append d).txv = b.txv := rfl
@[simp] theorem Block.append_fSeq (d : Byte) (b : Block) : (b.append d).fSeq = b.fSeq := rfl
@[simp] theorem Block.append_fIll (d : Byte) (b : Block) : (b.append d).fIll = b.fIll := rfl
@[simp] theorem Block.append_txbuf (d : Byte) (b : Block) : (b.append d).txbuf = b.txbuf ++ [d] := rfl

@[simp] theorem Block.appendChecksum_crc (b : Block) : (b.appendChecksum).crc = b.crc := rfl
@[simp] theorem Block.appendChecksum_phase (b : Block) : (b.appendChecksum).phase = b.phase := rfl
@[simp] theorem Block.appendChecksum_idx (b : Block) : (b.appendChecksum).idx = b.idx := rfl
@[simp] theorem Block.appendChecksum_rCmd (b : Block) : (b.appendChecksum).rCmd = b.rCmd := rfl
@[simp] theorem Block.appendChecksum_rStatus (b : Block) : (b.appendChecksum).rStatus = b.rStatus := rfl
@[simp] theorem Block.appendChecksum_rLo (b : Block) : (b.appendChecksum).rLo = b.rLo := rfl
@[simp] theorem Block.appendChecksum_resCmd (b : Block) : (b.appendChecksum).resCmd = b.resCmd := rfl
@[simp] theorem Block.appendChecksum_resStatus (b : Block) : (b.appendChecksum).resStatus = b.resStatus := rfl
@[simp] theorem Block.appendChecksum_dv (b : Block) : (b.appendChecksum).dv = b.dv := rfl
@[simp] theorem Block.appendChecksum_fChk (b : Block) : (b.appendChecksum).fChk = b.fChk := rfl
@[simp] theorem Block.appendChecksum_txv (b : Block) : (b.appendChecksum).txv = b.txv := rfl
@[simp] theorem Block.appendChecksum_fSeq (b : Block) : (b.appendChecksum).fSeq = b.fSeq := rfl
@[simp] theorem Block.appendChecksum_fIll (b : Block) : (b.appendChecksum).fIll = b.fIll := rfl
@[simp] theorem Block.appendChecksum_txbuf (b : Block) : (b.appendChecksum).txbuf = (b.txbuf ++ [checksumLo b.crc]) ++ [checksumHi b.crc] := rfl

@[simp] theorem Block.takeCmdId_crc (d : Byte) (b : Block) : (b.takeCmdId d).crc = crcByte 0x0000#16 d := rfl
@[simp] theorem Block.takeCmdId_phase (d : Byte) (b : Block) : (b.takeCmdId d).phase = .dec := rfl
@[simp] theorem Block.takeCmdId_idx (d : Byte) (b : Block) : (b.takeCmdId d).idx = 1 := rfl
@[simp] theorem Block.takeCmdId_rCmd (d : Byte) (b : Block) : (b.takeCmdId d).rCmd = d := rfl
@[simp] theorem Block.takeCmdId_rStatus (d : Byte) (b : Block) : (b.takeCmdId d).rStatus = b.rStatus := rfl
@[simp] theorem Block.takeCmdId_rLo (d : Byte) (b : Block) : (b.takeCmdId d).rLo = b.rLo := rfl
@[simp] theorem Block.takeCmdId_resCmd (d : Byte) (b : Block) : (b.takeCmdId d).resCmd = b.resCmd := rfl
@[simp] theorem Block.takeCmdId_resStatus (d : Byte) (b : Block) : (b.takeCmdId d).resStatus = b.resStatus := rfl
@[simp] theorem Block.takeCmdId_dv (d : Byte) (b : Block) : (b.takeCmdId d).dv = false := rfl
@[simp] theorem Block.takeCmdId_fChk (d : Byte) (b : Block) : (b.takeCmdId d).fChk = false := rfl
@[simp] theorem Block.takeCmdId_txv (d : Byte) (b : Block) : (b.takeCmdId d).txv = b.txv := rfl
@[simp] theorem Block.takeCmdId_fSeq (d : Byte) (b : Block) : (b.takeCmdId d).fSeq = b.fSeq := rfl
@[simp] theorem Block.takeCmdId_fIll (d : Byte) (b : Block) : (b.takeCmdId d).fIll = b.fIll := rfl
@[simp] theorem Block.takeCmdId_txbuf (d : Byte) (b : Block) : (b.takeCmdId d).txbuf = b.txbuf := rfl

@[simp] theorem Block.takeStatus_crc (d : Byte) (b : Block) : (b.takeStatus d).crc = crcByte b.crc d := rfl
@[simp] theorem Block.takeStatus_phase (d : Byte) (b : Block) : (b.takeStatus d).phase = b.phase := rfl
@[simp] theorem Block.takeStatus_idx (d : Byte) (b : Block) : (b.takeStatus d).idx = 2 := rfl
@[simp] theorem Block.takeStatus_rCmd (d : Byte) (b : Block) : (b.takeStatus d).rCmd = b.rCmd := rfl
@[simp] theorem Block.takeStatus_rStatus (d : Byte) (b : Block) : (b.takeStatus d).rStatus = d := rfl
@[simp] theorem Block.takeStatus_rLo (d : Byte) (b : Block) : (b.takeStatus d).rLo = b.rLo := rfl
@[simp] theorem Block.takeStatus_resCmd (d : Byte) (b : Block) : (b.takeStatus d).resCmd = b.resCmd := rfl
@[simp] theorem Block.takeStatus_resStatus (d : Byte) (b : Block) : (b.takeStatus d).resStatus = b.resStatus := rfl
@[simp] theorem Block.takeStatus_dv (d : Byte) (b : Block) : (b.takeStatus d).dv = b.dv := rfl
@[simp] theorem Block.takeStatus_fChk (d : Byte) (b : Block) : (b.takeStatus d).fChk = b.fChk := rfl
@[simp] theorem Block.takeStatus_txv (d : Byte) (b : Block) : (b.takeStatus d).txv = b.txv := rfl
@[simp] theorem Block.takeStatus_fSeq (d : Byte) (b : Block) : (b.takeStatus d).fSeq = b.fSeq := rfl
@[simp] theorem Block.takeStatus_fIll (d : Byte) (b : Block) : (b.takeStatus d).fIll = b.fIll := rfl
@[simp] theorem Block.takeStatus_txbuf (d : Byte) (b : Block) : (b.takeStatus d).txbuf = b.txbuf := rfl

@[simp] theorem Block.takeChecksumLo_crc (d : Byte) (b : Block) : (b.takeChecksumLo d).crc = b.crc := rfl
@[simp] theorem Block.takeChecksumLo_phase (d : Byte) (b : Block) : (b.takeChecksumLo d).phase = b.phase := rfl
@[simp] theorem Block.takeChecksumLo_idx (d : Byte) (b : Block) : (b.takeChecksumLo d).idx = 3 := rfl
@[simp] theorem Block.takeChecksumLo_rCmd (d : Byte) (b : Block) : (b.takeChecksumLo d).rCmd = b.rCmd := rfl
@[simp] theorem Block.takeChecksumLo_rStatus (d : Byte) (b : Block) : (b.takeChecksumLo d).rStatus = b.rStatus := rfl
@[simp] theorem Block.takeChecksumLo_rLo (d : Byte) (b : Block) : (b.takeChecksumLo d).rLo = d := rfl
@[simp] theorem Block.takeChecksumLo_resCmd (d : Byte) (b : Block) : (b.takeChecksumLo d).resCmd = b.resCmd := rfl
@[simp] theorem Block.takeChecksumLo_resStatus (d : Byte) (b : Block) : (b.takeChecksumLo d).resStatus = b.resStatus := rfl
@[simp] theorem Block.takeChecksumLo_dv (d : Byte) (b : Block) : (b.takeChecksumLo d).dv = b.dv := rfl
@[simp] theorem Block.takeChecksumLo_fChk (d : Byte) (b : Block) : (b.takeChecksumLo d).fChk = b.fChk := rfl
@[simp] theorem Block.takeChecksumLo_txv (d : Byte) (b : Block) : (b.takeChecksumLo d).txv = b.txv := rfl
@[simp] theorem Block.takeChecksumLo_fSeq (d : Byte) (b : Block) : (b.takeChecksumLo d).fSeq = b.fSeq := rfl
@[simp] theorem Block.takeChecksumLo_fIll (d : Byte) (b : Block) : (b.takeChecksumLo d).fIll = b.fIll := rfl
@[simp] theorem Block.takeChecksumLo_txbuf (d : Byte) (b : Block) : (b.takeChecksumLo d).txbuf = b.txbuf := rfl

end Sys2Proof.Machine
end

