-- ==== Sys2Proof/Laws/Ops.lean ====
section
/-! SUPPORT. For each shared operation, one lemma that says all it can do. -/

namespace Sys2Proof.Machine

theorem Block.faulted_eq_false_iff (b : Block) : b.faulted = false ↔ b.fSeq = false ∧ b.fIll = false := by
  simp [Block.faulted]

theorem Block.faulted_eq_true_iff (b : Block) : b.faulted = true ↔ b.fSeq = true ∨ b.fIll = true := by
  simp [Block.faulted]

/-- A command is ignored, or faults, or has its effect (60_exceptions.md rule R128). -/
theorem Block.command_cases (legal : Bool) (effect : Block → Block) (b : Block) :
    (b.faulted = true ∧ b.command legal effect = b) ∨
    (b.faulted = false ∧ legal = false ∧ b.command legal effect = b.seqFault) ∨
    (b.faulted = false ∧ legal = true ∧ b.command legal effect = effect b) := by
  unfold Block.command
  cases b.faulted <;> cases legal <;> simp

theorem Block.command_of_faulted {b : Block} (h : b.faulted = true) (legal : Bool) (effect : Block → Block) :
    b.command legal effect = b := by
  simp [Block.command, h]

theorem Block.command_of_not_legal {b : Block} (h : b.faulted = false) (effect : Block → Block) :
    b.command false effect = b.seqFault := by
  simp [Block.command, h]

theorem Block.command_of_legal {b : Block} (h : b.faulted = false) (effect : Block → Block) :
    b.command true effect = effect b := by
  simp [Block.command, h]

/-- IllegalCommand is ignored or sets `F_ILL` (60_exceptions.md rules R124, R128). -/
theorem Block.illegalCommand_cases (b : Block) :
    (b.faulted = true ∧ b.illegalCommand = b) ∨
    (b.faulted = false ∧ b.illegalCommand = { b with fIll := true }) := by
  unfold Block.illegalCommand
  cases b.faulted <;> simp

/-- The fourth DEC_BYTE delivers the pair or reports the mismatch (42_decode.md rule R110). -/
theorem Block.takeChecksumHi_cases (d : Byte) (b : Block) :
    (assemble b.rLo d = b.crc ∧ b.takeChecksumHi d =
      { b with resCmd := b.rCmd, resStatus := b.rStatus, dv := true, phase := .idle, idx := 0 }) ∨
    (assemble b.rLo d ≠ b.crc ∧ b.takeChecksumHi d = { b with fChk := true, phase := .idle, idx := 0 }) := by
  unfold Block.takeChecksumHi
  by_cases h : assemble b.rLo d = b.crc <;> simp [h]

/-- DEC_BYTE is ignored, or faults, or takes the byte that `idx` says (42_decode.md rule R110). -/
theorem Block.cmdDecByte_cases (d : Byte) (b : Block) :
    (b.faulted = true ∧ b.cmdDecByte d = b) ∨
    (b.faulted = false ∧ b.phase = .enc ∧ b.cmdDecByte d = b.seqFault) ∨
    (b.faulted = false ∧ b.phase ≠ .enc ∧ b.idx = 0 ∧ b.cmdDecByte d = b.takeCmdId d) ∨
    (b.faulted = false ∧ b.phase ≠ .enc ∧ b.idx = 1 ∧ b.cmdDecByte d = b.takeStatus d) ∨
    (b.faulted = false ∧ b.phase ≠ .enc ∧ b.idx = 2 ∧ b.cmdDecByte d = b.takeChecksumLo d) ∨
    (b.faulted = false ∧ b.phase ≠ .enc ∧ b.idx = 3 ∧ b.cmdDecByte d = b.takeChecksumHi d) := by
  cases hf : b.faulted
  · by_cases hp : b.phase = .enc
    · simp [Block.cmdDecByte, Block.command, hf, hp]
    · have hl : (b.phase != .enc) = true := by simpa using hp
      have hx : b.idx = 0 ∨ b.idx = 1 ∨ b.idx = 2 ∨ b.idx = 3 := by omega
      rcases hx with hi | hi | hi | hi <;> simp [Block.cmdDecByte, Block.command, hf, hp, hl, hi]
  · simp [Block.cmdDecByte, Block.command, hf]

/-- Nothing is presented, or the first input is taken (20_memory.md rule R41). -/
theorem State.fetch_cases (s : State) :
    (s.inbox = [] ∧ s.fetch = none) ∨
    (∃ x rest, s.inbox = x :: rest ∧ s.fetch = some (x, { s with inbox := rest })) := by
  unfold State.fetch
  cases s.inbox <;> simp

theorem toByte_ok_iff (v : Int) (b : Byte) : toByte v = .ok b ↔ 0 ≤ v ∧ v ≤ 255 ∧ b = narrow v := by
  by_cases h : fitsByte v
  · simp only [toByte, h, if_true, Except.ok.injEq]
    simp only [fitsByte, Bool.and_eq_true, decide_eq_true_eq] at h
    constructor
    · rintro rfl; exact ⟨h.1, h.2, rfl⟩
    · rintro ⟨-, -, rfl⟩; rfl
  · simp only [toByte, h]
    simp only [fitsByte, Bool.and_eq_true, decide_eq_true_eq] at h
    constructor
    · intro h'; cases h'
    · rintro ⟨h0, h1, -⟩; exact absurd ⟨h0, h1⟩ h

/-- The ENCODE call issues its whole command sequence and returns what the block then shows, or returns ValidationError and
issues no command (41_encode.md rule R98). -/
theorem Block.encodeCall_cases (maxPayload : Option Nat) (register : Int) (payload : List Int) (b : Block) :
    (∃ r p, toByte register = .ok r ∧ toBytes payload = .ok p ∧
      b.encodeCall maxPayload register payload =
        (b.runEncode maxPayload r p, (b.runEncode maxPayload r p).encodeReply)) ∨
    b.encodeCall maxPayload register payload = (b, some (.error .validationError)) := by
  unfold Block.encodeCall
  cases toByte register <;> cases toBytes payload <;> simp

@[simp] theorem Block.decodeCall_fst (b0 b1 b2 b3 : Byte) (b : Block) :
    (b.decodeCall b0 b1 b2 b3).1 = b.runDecode b0 b1 b2 b3 := rfl

@[simp] theorem Block.decodeCall_snd (b0 b1 b2 b3 : Byte) (b : Block) :
    (b.decodeCall b0 b1 b2 b3).2 = (b.runDecode b0 b1 b2 b3).decodeReply := rfl

@[simp] theorem Block.crcCall_fst (bytes : List Byte) (b : Block) : (b.crcCall bytes).1 = b.runCrc16 bytes := rfl

@[simp] theorem Block.crcCall_snd (bytes : List Byte) (b : Block) :
    (b.crcCall bytes).2 = (b.runCrc16 bytes).crcReply := rfl

theorem crcFrom_append (c : Crc) (s t : List Byte) : crcFrom c (s ++ t) = crcFrom (crcFrom c s) t := by
  simp [crcFrom, List.foldl_append]

end Sys2Proof.Machine
end

