-- ==== Sys2Proof/Laws/PerInstr.lean ====
section
/-! SUPPORT. Statements made for every instruction, one lemma per constructor. -/

namespace Sys2Proof.Laws

/-- The decoder rejects no word of the instruction's spelling in command words (30_encoding.md rules R60, R65). -/
def SpellingAccepted.Statement (i : Instr) : Prop := ∀ w ∈ commandWords i, (decodeWord w).toOption.isSome = true

theorem accepted_crcClr : (decodeWord (commandWord 0b000#3 0x00#8)).toOption.isSome = true := by decide
theorem accepted_crcByte : ∀ d, (decodeWord (commandWord 0b001#3 d)).toOption.isSome = true := by decide +kernel
theorem accepted_encStart : ∀ d, (decodeWord (commandWord 0b010#3 d)).toOption.isSome = true := by decide +kernel
theorem accepted_encData : ∀ d, (decodeWord (commandWord 0b011#3 d)).toOption.isSome = true := by decide +kernel
theorem accepted_encEnd : (decodeWord (commandWord 0b100#3 0x00#8)).toOption.isSome = true := by decide
theorem accepted_decByte : ∀ d, (decodeWord (commandWord 0b101#3 d)).toOption.isSome = true := by decide +kernel
theorem accepted_reservedOp6 : ∀ d, (decodeWord (commandWord 0b110#3 d)).toOption.isSome = true := by decide +kernel
theorem accepted_reservedOp7 : ∀ d, (decodeWord (commandWord 0b111#3 d)).toOption.isSome = true := by decide +kernel

theorem accepted_encodeWords (r : Byte) (p : List Byte) :
    ∀ w ∈ encodeWords r p, (decodeWord w).toOption.isSome = true := by
  intro w hw
  simp only [encodeWords, List.mem_cons, List.mem_append, List.mem_map, List.not_mem_nil, or_false] at hw
  rcases hw with rfl | ⟨d, -, rfl⟩ | rfl
  · exact accepted_encStart r
  · exact accepted_encData d
  · exact accepted_encEnd

theorem accepted_decodeWords (bs : List Byte) :
    ∀ w ∈ bs.map (commandWord 0b101#3), (decodeWord w).toOption.isSome = true := by
  intro w hw
  obtain ⟨d, -, rfl⟩ := List.mem_map.mp hw
  exact accepted_decByte d

theorem accepted_one {w : CommandWord} (h : (decodeWord w).toOption.isSome = true) :
    ∀ v ∈ [w], (decodeWord v).toOption.isSome = true := by
  intro v hv
  rw [List.mem_singleton.mp hv]
  exact h

theorem SpellingAccepted.crcClr : Statement .crcClr := accepted_one accepted_crcClr
theorem SpellingAccepted.crcByte (d : Byte) : Statement (.crcByte d) := accepted_one (accepted_crcByte d)
theorem SpellingAccepted.encStart (d : Byte) : Statement (.encStart d) := accepted_one (accepted_encStart d)
theorem SpellingAccepted.encData (d : Byte) : Statement (.encData d) := accepted_one (accepted_encData d)
theorem SpellingAccepted.encEnd : Statement .encEnd := accepted_one accepted_encEnd
theorem SpellingAccepted.decByte (d : Byte) : Statement (.decByte d) := accepted_one (accepted_decByte d)
theorem SpellingAccepted.reservedOp6 (d : Byte) : Statement (.reservedOp6 d) := accepted_one (accepted_reservedOp6 d)
theorem SpellingAccepted.reservedOp7 (d : Byte) : Statement (.reservedOp7 d) := accepted_one (accepted_reservedOp7 d)
theorem SpellingAccepted.brightness (p : List Int) : Statement (.brightness p) := accepted_encodeWords _ _
theorem SpellingAccepted.rotate (p : List Int) : Statement (.rotate p) := accepted_encodeWords _ _
theorem SpellingAccepted.power (p : List Int) : Statement (.power p) := accepted_encodeWords _ _
theorem SpellingAccepted.maxIdx (p : List Int) : Statement (.maxIdx p) := accepted_encodeWords _ _
theorem SpellingAccepted.idxStep (p : List Int) : Statement (.idxStep p) := accepted_encodeWords _ _
theorem SpellingAccepted.driveMode (p : List Int) : Statement (.driveMode p) := accepted_encodeWords _ _
theorem SpellingAccepted.status (s lo hi : Byte) : Statement (.status s lo hi) := accepted_decodeWords _
theorem SpellingAccepted.decode (b0 b1 b2 b3 : Byte) : Statement (.decode b0 b1 b2 b3) := accepted_decodeWords _
theorem SpellingAccepted.encode (r : Int) (p : List Int) : Statement (.encode r p) := accepted_encodeWords _ _

theorem SpellingAccepted.crc16 (bs : List Byte) : Statement (.crc16 bs) := by
  intro w hw
  simp only [commandWords, List.mem_cons, List.mem_map] at hw
  rcases hw with rfl | ⟨d, -, rfl⟩
  · exact accepted_crcClr
  · exact accepted_crcByte d

end Sys2Proof.Laws
end

