-- ==== Sys2Proof/Tests/Slice0.lean ====
section
/-! SUPPORT. Tests and witnesses. Expected values come from the worked examples and vectors of spec/40_crc.md, 41_encode.md,
42_decode.md and 95_test_vectors.md; the vector or program is named at each test. -/

namespace Sys2Proof.Tests

open Sys2Proof Sys2Proof.Machine

/-! ### States to start from -/

/-- Inside the frame of P2, after its first word: `ENC_START 0x30`. -/
def openFrame : State :=
  { State.reset with block := { Block.reset with phase := .enc, crc := 0x3653#16, txbuf := [0x30#8] } }

/-- Inside the decode of P3, with `k` bytes of `10 00 73 03` taken. -/
def openDecode (k : Fin 4) (crc : Crc) (cmd st lo : Byte) : State :=
  { State.reset with block := { Block.reset with phase := .dec, idx := k, crc := crc, rCmd := cmd, rStatus := st, rLo := lo } }

def decode1 : State := openDecode 1 0x1231#16 0x10#8 0x00#8 0x00#8
def decode2 : State := openDecode 2 0x0373#16 0x10#8 0x00#8 0x00#8
def decode3 : State := openDecode 3 0x0373#16 0x10#8 0x00#8 0x73#8

def seqFaulted : State := { State.reset with block := { Block.reset with fSeq := true } }
def illFaulted : State := { State.reset with block := { Block.reset with fIll := true } }

def presenting (x : HostInput) (s : State) : State := s.presentNext x

/-- The block after an instruction. -/
def blockAfter (i : Instr) (s : State) : Option Block :=
  match exec i s with
  | .next t => some t.block
  | _ => none

/-- The block after one step. -/
def blockAfterStep (s : State) : Option Block :=
  match step s with
  | .next t => some t.block
  | _ => none

/-- What a call returned. -/
def replyAfter (i : Instr) (s : State) : Option Reply := (s.block.call Config.maxPayload i).2

/-! ### Well-formedness: the check refuses an ill-formed term of every kind it looks at -/

theorem test_illformed_brightness : (Instr.brightness [0, 256]).wellFormed = false := by decide
theorem test_illformed_rotate : (Instr.rotate [1, 300, 0]).wellFormed = false := by decide
theorem test_illformed_power : (Instr.power [0, -1]).wellFormed = false := by decide
theorem test_illformed_maxIdx : (Instr.maxIdx [256]).wellFormed = false := by decide
theorem test_illformed_idxStep : (Instr.idxStep [-1]).wellFormed = false := by decide
theorem test_illformed_driveMode : (Instr.driveMode [65536]).wellFormed = false := by decide
theorem test_illformed_encode_register : (Instr.encode 0x130 []).wellFormed = false := by decide
theorem test_illformed_encode_payload : (Instr.encode 0x20 [0, 256]).wellFormed = false := by decide
theorem test_wellformed_encode : (Instr.encode 0x30 [0, 255]).wellFormed = true := by decide

/-! ### Decoding: words written out from 30_encoding.md rule R60, frames and lines from rules R48, R49, R65 -/

theorem test_decode_crcClr : decode (.cw 0b000_00000000#11) = .ok .crcClr := by decide
theorem test_decode_crcByte : decode (.cw 0b001_00110001#11) = .ok (.crcByte 0x31#8) := by decide
theorem test_decode_encStart : decode (.cw 0b010_00110000#11) = .ok (.encStart 0x30#8) := by decide
theorem test_decode_encData : decode (.cw 0b011_00101100#11) = .ok (.encData 0x2C#8) := by decide
theorem test_decode_encEnd : decode (.cw 0b100_00000000#11) = .ok .encEnd := by decide
theorem test_decode_decByte : decode (.cw 0b101_01110011#11) = .ok (.decByte 0x73#8) := by decide
theorem test_decode_op6 : decode (.cw 0b110_00000000#11) = .ok (.reservedOp6 0x00#8) := by decide
theorem test_decode_op7 : decode (.cw 0b111_11111111#11) = .ok (.reservedOp7 0xFF#8) := by decide
theorem test_decode_001 : decode (.cw 0x001#11) = .error .crcClrWithOperand := by decide
theorem test_decode_0FF : decode (.cw 0x0FF#11) = .error .crcClrWithOperand := by decide
theorem test_decode_401 : decode (.cw 0x401#11) = .error .encEndWithOperand := by decide
theorem test_decode_4FF : decode (.cw 0x4FF#11) = .error .encEndWithOperand := by decide
theorem test_decode_brightness : decode (.req 0x20 [0, 255]) = .ok (.brightness [0, 255]) := by decide
theorem test_decode_rotate : decode (.req 0x30 [1, 0x2C, 0x01]) = .ok (.rotate [1, 0x2C, 0x01]) := by decide
theorem test_decode_power : decode (.req 0x31 [0, 255]) = .ok (.power [0, 255]) := by decide
theorem test_decode_maxIdx : decode (.req 0x32 []) = .ok (.maxIdx []) := by decide
theorem test_decode_idxStep : decode (.req 0x33 []) = .ok (.idxStep []) := by decide
theorem test_decode_driveMode : decode (.req 0x34 []) = .ok (.driveMode []) := by decide
theorem test_decode_other_register : decode (.req 0x10 [3]) = .ok (.encode 0x10 [3]) := by decide
theorem test_decode_status :
    decode (.rsp 0x10#8 0x03#8 0x10#8 0x33#8) = .ok (.status 0x03#8 0x10#8 0x33#8) := by decide
theorem test_decode_other_cmd_id :
    decode (.rsp 0x11#8 0x00#8 0x42#8 0x30#8) = .ok (.decode 0x11#8 0x00#8 0x42#8 0x30#8) := by decide
theorem test_decode_crc16 : decode (.crc16 [0x31#8]) = .ok (.crc16 [0x31#8]) := by decide
theorem test_decode_encode : decode (.encode 0x30 [1]) = .ok (.encode 0x30 [1]) := by decide
theorem test_decode_decode :
    decode (.decode 0x10#8 0x00#8 0x73#8 0x03#8) = .ok (.decode 0x10#8 0x00#8 0x73#8 0x03#8) := by decide

/-- P1 and P2: the words of a pseudo-operation, as the programs list them. -/
theorem test_words_of_crc16 : commandWords (.crc16 [0x31#8, 0x32#8]) = [0x000#11, 0x131#11, 0x132#11] := by decide
theorem test_words_of_encode :
    commandWords (.encode 0x30 [1, 0x2C, 0x01]) = [0x230#11, 0x301#11, 0x32C#11, 0x301#11, 0x400#11] := by decide
theorem test_sequence_of_decode :
    decodeSequence [0x510#11, 0x500#11, 0x573#11, 0x503#11] = some (.decode 0x10#8 0x00#8 0x73#8 0x03#8) := by decide
theorem test_interleaved_sequence_is_none : decodeSequence [0x220#11, 0x300#11, 0x510#11] = none := by decide

/-- The opcode table's own bit patterns. -/
theorem test_table_encData : decodeTableWord 16 0x300 = some (.encData 0x00#8) := by decide
theorem test_table_status : decodeTableWord 8 0x10 = some (.status 0x00#8 0x00#8 0x00#8) := by decide
theorem test_table_rotate : decodeTableWord 8 0x30 = some (.rotate []) := by decide
theorem test_table_fetch : blockAfterStep (State.reset.withFetchWord 16 0x600) =
    some { Block.reset with fIll := true } := by decide

/-! ### The generator -/

/-- 40_crc.md rule R78: the table the spec prints is `crc16_byte(0x0000, i)`, entry by entry. -/
theorem test_table_is_crcByte_of_index :
    (List.range 256).map (fun i => crcByte 0x0000#16 (BitVec.ofNat 8 i)) = crcTable := by decide +kernel
/-- 95_test_vectors.md section 2.1. -/
theorem test_crcBit_8000 : crcBit 0x8000#16 = 0x1021#16 := by decide
theorem test_crcBit_FFFF : crcBit 0xFFFF#16 = 0xEFDF#16 := by decide
theorem test_crcByte_1234 : crcByte 0x1234#16 0x56#8 = 0x3C40#16 := by decide
theorem test_crc16_check_value_and_order :
    crc16 [0x31#8, 0x32#8, 0x33#8, 0x34#8, 0x35#8, 0x36#8, 0x37#8, 0x38#8, 0x39#8] = 0x31C3#16 ∧
    crc16 [0x31#8, 0x32#8] = 0x20B5#16 ∧ crc16 [0x32#8, 0x31#8] = 0x4585#16 := by decide +kernel

/-! ### One step of every instruction -/

/-- 40_crc.md rules R82, R83, the examples; P15. -/
theorem test_crcClr :
    blockAfter .crcClr { State.reset with block := { Block.reset with crc := 0x31C3#16 } } = some Block.reset := by decide
theorem test_crcClr_in_decode :
    blockAfter .crcClr decode1 = some { decode1.block with fSeq := true } := by decide
theorem test_crcByte :
    blockAfter (.crcByte 0x31#8) State.reset = some { Block.reset with crc := 0x2672#16 } := by decide
/-- P10: it continues from a stale accumulator. -/
theorem test_crcByte_continues :
    (blockAfter (.crcByte 0x31#8) { State.reset with block := { Block.reset with crc := 0x3653#16 } }).map Block.crc =
      some 0x23E7#16 := by decide
/-- P2, words 1, 2, 5. -/
theorem test_encStart : blockAfter (.encStart 0x30#8) State.reset = some openFrame.block := by decide
theorem test_encData : blockAfter (.encData 0x01#8) openFrame =
    some { openFrame.block with crc := 0x15B4#16, txbuf := [0x30#8, 0x01#8] } := by decide
/-- P9: `MAX_PAYLOAD` = 1, the second payload byte. -/
theorem test_encData_overflow :
    Block.execute (some 1) (.encData 0x02#8)
      { Block.reset with phase := .enc, crc := 0x16C7#16, txbuf := [0x20#8, 0x01#8] } =
      { Block.reset with phase := .enc, crc := 0x16C7#16, txbuf := [0x20#8, 0x01#8], fSeq := true } := by decide
theorem test_encEnd :
    blockAfter .encEnd { State.reset with block :=
      { Block.reset with phase := .enc, crc := 0x4873#16, txbuf := [0x30#8, 0x01#8, 0x2C#8, 0x01#8] } } =
      some { Block.reset with
        crc := 0x4873#16, txv := true, txbuf := [0x30#8, 0x01#8, 0x2C#8, 0x01#8, 0x73#8, 0x48#8] } := by decide
/-- P14. -/
theorem test_encEnd_in_idle : (blockAfter .encEnd State.reset).map Block.sr = some 0x20#8 := by decide
/-- P3, words 1 and 4. -/
theorem test_decByte_first : blockAfter (.decByte 0x10#8) State.reset = some decode1.block := by decide
theorem test_decByte_last :
    blockAfter (.decByte 0x03#8) decode3 =
      some { Block.reset with
        crc := 0x0373#16, rCmd := 0x10#8, rLo := 0x73#8, resCmd := 0x10#8, dv := true } := by decide
/-- P7. -/
theorem test_reservedOp6 :
    (blockAfter (.reservedOp6 0x00#8) openFrame).map Block.sr = some 0x41#8 := by decide
theorem test_reservedOp7 : (blockAfter (.reservedOp7 0xFF#8) State.reset).map Block.sr = some 0x40#8 := by decide
/-- Vectors E10, E1, E5, E12, E13, E14. -/
theorem test_brightness : replyAfter (.brightness [0, 128, 1, 255]) State.reset =
    some (.frame [0x20#8, 0x00#8, 0x80#8, 0x01#8, 0xFF#8, 0x2F#8, 0x1E#8]) := by decide +kernel
theorem test_rotate : replyAfter (.rotate (rotatePayload (-300))) State.reset =
    some (.frame [0x30#8, 0x01#8, 0x2C#8, 0x01#8, 0x73#8, 0x48#8]) := by decide +kernel
theorem test_power : replyAfter (.power [0, 255]) State.reset =
    some (.frame [0x31#8, 0x00#8, 0xFF#8, 0x65#8, 0xEC#8]) := by decide +kernel
theorem test_maxIdx : replyAfter (.maxIdx []) State.reset = some (.frame [0x32#8, 0x11#8, 0x16#8]) := by decide
theorem test_idxStep : replyAfter (.idxStep []) State.reset = some (.frame [0x33#8, 0x30#8, 0x06#8]) := by decide
theorem test_driveMode : replyAfter (.driveMode []) State.reset = some (.frame [0x34#8, 0xD7#8, 0x76#8]) := by decide
/-- Vector X4, and P12's stale registers after a mismatch. -/
theorem test_status : replyAfter (.status 0x03#8 0x10#8 0x33#8) State.reset = some (.status 0x10#8 0x03#8) := by decide +kernel
theorem test_status_mismatch :
    blockAfter (.status 0x01#8 0x73#8 0x03#8)
      { State.reset with block := { Block.reset with dv := true, resCmd := 0x10#8 } } =
      some { Block.reset with
        crc := 0x1352#16, rCmd := 0x10#8, rStatus := 0x01#8, rLo := 0x73#8, resCmd := 0x10#8, fChk := true } := by decide +kernel
/-- P1, its first two bytes. -/
theorem test_crc16 : replyAfter (.crc16 [0x31#8, 0x32#8]) State.reset = some (.crc 0x20B5#16) := by decide +kernel
/-- Vectors E19 and V6. -/
theorem test_encode : (blockAfter (.encode 0x10 [0]) State.reset).map Block.txbuf =
    some [0x10#8, 0x00#8, 0x73#8, 0x03#8] := by decide +kernel
theorem test_encode_invalid : exec (.encode 0x20 [0, 256, 1, 999]) openFrame = .next openFrame ∧
    replyAfter (.encode 0x20 [0, 256, 1, 999]) openFrame = some (.error .validationError) := ⟨rfl, rfl⟩
/-- Vectors X11 and X9. -/
theorem test_decode_swapped_checksum_and_zero_frame :
    replyAfter (.decode 0x10#8 0x00#8 0x03#8 0x73#8) State.reset = some (.error .checksumError) ∧
    replyAfter (.decode 0x00#8 0x00#8 0x00#8 0x00#8) State.reset = some (.status 0x00#8 0x00#8) := by decide +kernel
/-- P3, end state: `SR` and `RES`. -/
theorem test_ports :
    (blockAfter (.decode 0x10#8 0x00#8 0x73#8 0x03#8) { State.reset with block := { Block.reset with txv := true } }).map
      (fun b => (b.sr, b.resPort)) = some (0x14#8, 0x0010#16) := by decide +kernel
/-- P6, word 4: ignored under a sticky fault; P16: RESET. -/
theorem test_sticky : blockAfter (.encData 0xFF#8) { openFrame with block := { openFrame.block with fSeq := true } } =
    some { openFrame.block with fSeq := true } := by decide
theorem test_reset_event : blockAfterStep (presenting .reset openFrame) = some Block.reset := by decide

/-- Host scenarios H4 (a resend) and H6 (three bad responses: four writes, three reads). -/
def hostRequest (n : Nat) : SendRequest := ⟨7, 0x31, [0, 255], n, 1, false⟩
def responseX1 : Response := ⟨0x10#8, 0x00#8, 0x73#8, 0x03#8⟩
def responseX2 : Response := ⟨0x10#8, 0x01#8, 0x52#8, 0x13#8⟩
def responseX12 : Response := ⟨0x10#8, 0x00#8, 0x73#8, 0x02#8⟩
def scenario (n : Nat) (rs : List Response) : SendResult × Nat × Nat :=
  let r := sendAndConfirm none (hostRequest n) rs Block.reset
  (r.1, countWrites r.2.1, countReads r.2.1)
theorem test_host_H4_H6_H15 : scenario 3 [responseX2, responseX1] = (.ok, 2, 2) ∧
    scenario 3 [responseX12, responseX12, responseX12] = (.timeoutError, 4, 3) ∧
    scenario 0 [] = (.timeoutError, 1, 0) := by decide +kernel

/-! ### Witnesses: for every statement with hypotheses, concrete values that meet them, clause by clause. A command's three
kinds of state: legal, wrong phase, faulted. -/

theorem witness_idle_fault_free : State.reset.block.phase = .idle ∧ State.reset.block.idx = 0 ∧
    State.reset.block.fSeq = false ∧ State.reset.block.fIll = false ∧ State.reset.block.faulted = false := by decide
theorem witness_open_frame_fault_free : openFrame.block.phase = .enc ∧ openFrame.block.idx = 0 ∧
    openFrame.block.fSeq = false ∧ openFrame.block.fIll = false := by decide
theorem witness_open_decode_fault_free :
    (decode1.block.phase = .dec ∧ decode1.block.idx = 1 ∧ decode1.block.faulted = false) ∧
    (decode2.block.phase = .dec ∧ decode2.block.idx = 2 ∧ decode2.block.faulted = false) ∧
    (decode3.block.phase = .dec ∧ decode3.block.idx = 3 ∧ decode3.block.faulted = false) := by decide
theorem witness_sticky_faults : seqFaulted.block.fSeq = true ∧ illFaulted.block.fIll = true := by decide

theorem witness_EncodeAfterDecodeOfWords : decode (.cw 0x1FF#11) = .ok (.crcByte 0xFF#8) := by decide
theorem witness_PseudoOperationWordsRoundTrip : (Instr.encode 255 [0, 255]).wellFormed = true := by decide
theorem witness_CrcBitShiftStep : 32768 ≤ (0x8000#16 : Crc).toNat ∧ (0x7FFF#16 : Crc).toNat < 32768 := by decide
theorem witness_CrcXorLinear : ([0x10#8, 0x00#8] : List Byte).length = ([0x20#8, 0xFF#8] : List Byte).length := by decide
theorem witness_CrcBijectiveOnTwoBytes : crc16 [0xFF#8, 0x01#8] = crc16 [0xFF#8, 0x01#8] := rfl
theorem witness_reserved_operand_ranges :
    (0x001 ≤ (0x001#11 : CommandWord).toNat ∧ (0x0FF#11 : CommandWord).toNat ≤ 0x0FF) ∧
    (0x401 ≤ (0x401#11 : CommandWord).toNat ∧ (0x4FF#11 : CommandWord).toNat ≤ 0x4FF) ∧
    0x600 ≤ (0x600#11 : CommandWord).toNat := by decide
/-- ENC_DATA: the last byte `MAX_PAYLOAD` = 1 admits, the first it does not, and the unbounded parameter. -/
theorem witness_EncDataCommand_room : ∀ n, (some 1 : Option Nat) = some n → openFrame.block.txbuf.length < n + 1 := by
  intro n h; cases h; decide
theorem witness_EncDataCommand_overflow : (some 0 : Option Nat) = some 0 ∧ 0 + 1 ≤ openFrame.block.txbuf.length := by decide
theorem witness_EncDataCommand_supplied : ∀ n, Config.maxPayload = some n → openFrame.block.txbuf.length < n + 1 := by
  intro n h; cases h
theorem witness_DecByteCommand_match : decode3.block.crc.toNat = decode3.block.rLo.toNat + 256 * (0x03#8 : Byte).toNat := by decide
theorem witness_DecByteCommand_mismatch :
    decode3.block.crc.toNat ≠ decode3.block.rLo.toNat + 256 * (0x02#8 : Byte).toNat := by decide
theorem witness_inputs :
    (presenting .reset seqFaulted).inbox = .reset :: [] ∧
    (presenting (.present (.cw 0x400#11)) illFaulted).inbox = .present (.cw 0x400#11) :: [] ∧
    (presenting (.present (.cw 0x401#11)) State.reset).inbox = .present (.cw 0x401#11) :: [] ∧
    State.reset.inbox = [] := by decide
theorem witness_StepRunsDecodedInstruction :
    decode (.cw 0x131#11) = .ok (.crcByte 0x31#8) ∧ decode (.cw 0x001#11) = .error .crcClrWithOperand := by decide
theorem witness_step_answers : ∃ t, step (presenting (.present (.cw 0x230#11)) State.reset) = .next t := ⟨_, rfl⟩

theorem inv_reset_state : State.reset.Inv := by constructor <;> decide
theorem inv_open_frame : openFrame.Inv := by constructor <;> decide
theorem inv_open_decode : decode3.Inv := by constructor <;> decide +kernel
theorem witness_StepKeepsInvariant :
    (presenting (.present (.cw 0x400#11)) openFrame).Inv ∧
    ∃ t, step (presenting (.present (.cw 0x400#11)) openFrame) = .next t := ⟨inv_open_frame, _, rfl⟩
theorem witness_DecodeValidMeansChecksumMatched :
    decode3.Inv ∧ decode3.block.dv = false ∧ (blockAfter (.decByte 0x03#8) decode3).map Block.dv = some true :=
  ⟨inv_open_decode, by decide⟩
theorem witness_OnlyNamedCommandsWriteEachField : ∃ t, exec (.encData 0x01#8) openFrame = .next t := ⟨_, rfl⟩

theorem witness_to_byte_bounds : (0 : Int) ≤ 255 ∧ (255 : Int) ≤ 255 ∧ (-1 : Int) < 0 ∧ (255 : Int) < 256 := by decide
theorem witness_encode_ok : encodeFrame 0x10 [0] = .ok [0x10#8, 0x00#8, 0x73#8, 0x03#8] := by decide +kernel
theorem witness_encode_fails : encodeFrame 0x130 [] = .error .validationError := by decide
theorem witness_within_max : ∀ n, (some 1 : Option Nat) = some n → ([0] : List Int).length ≤ n := by
  intro n h; cases h; decide
theorem witness_within_supplied_max : ∀ n, Config.maxPayload = some n → ([0] : List Int).length ≤ n := by
  intro n h; cases h
theorem witness_EncodePastMaxPayload : Block.reset.phase = .idle ∧ Block.reset.fSeq = false ∧ Block.reset.fIll = false ∧
    1 < ([0x01#8, 0x02#8] : List Byte).length := by decide
theorem witness_RequestFrames_invalid : ∃ v ∈ ([0, 256] : List Int), v < 0 ∨ 255 < v := ⟨256, by decide, by decide⟩
theorem witness_decode_status_match_and_mismatch : ((crc16 [0x10#8, 0x00#8]).toNat = (0x73#8 : Byte).toNat + 256 * (0x03#8 : Byte).toNat ∧
    decodeStatus 0x10#8 0x00#8 0x73#8 0x03#8 = .ok (0x10#8, 0x00#8)) ∧
    (crc16 [0x10#8, 0x00#8]).toNat ≠ (0x03#8 : Byte).toNat + 256 * (0x73#8 : Byte).toNat ∧
    decodeStatus 0x10#8 0x00#8 0x03#8 0x73#8 = .error .checksumError := by decide +kernel
theorem witness_DetectionStrength : (0x90#8, 0x00#8) ≠ ((0x10#8, 0x00#8) : Byte × Byte) ∧
    (0x73#8, 0x02#8) ≠ ((0x73#8, 0x03#8) : Byte × Byte) ∧ (31 : Fin 32) ≠ 0 := by decide
theorem witness_TransactionsIgnoreHistory :
    Block.reset.faulted = false ∧ Block.reset ≠ { Block.reset with crc := 0x31C3#16, txbuf := [0x00#8] } ∧
    ({ Block.reset with crc := 0x31C3#16, txbuf := [0x00#8] } : Block).faulted = false ∧
    (Instr.encode 0x10 [0]).wellFormed = true := by decide
theorem witness_RotatePayloadLayout : (-300 : Int) ≠ 0 ∧ (-65535 : Int).natAbs < 65536 ∧ 65536 ≤ (65536 : Int).natAbs := by decide
theorem witness_host_request : (hostRequest 3).dryRun = false ∧ 2 < (hostRequest 3).maxAttempts ∧
    encodeFrame (hostRequest 3).register (hostRequest 3).payload = .ok [0x31#8, 0x00#8, 0xFF#8, 0x65#8, 0xEC#8] ∧
    1 ≤ (hostRequest 1).maxAttempts := by decide +kernel
theorem witness_host_within_max : ∀ n, (some 2 : Option Nat) = some n → (hostRequest 3).payload.length ≤ n := by
  intro n h; cases h; decide

theorem witness_MachineRunIsBlockRun :
    (presenting .reset seqFaulted).inbox = [HostInput.reset] ++ [] ∧
    Block.run none [.present (.cw 0x220#11), .reset] Block.reset = Block.reset := by decide
theorem witness_HostStateMachine : TransportState.succeeded.terminal = true ∧ TransportState.sent.terminal = false ∧
    (0x11#8 : Byte) ≠ 0x10#8 := by decide

/-- P9: the block's own step under the parameter MAX_PAYLOAD = 1. -/
theorem test_block_run_overflow :
    (Block.run (some 1) [.present (.cw 0x220#11), .present (.cw 0x301#11), .present (.cw 0x302#11)] Block.reset).sr =
      0x21#8 := by decide
/-- Scenario H4: the states of a call with one resend (60_exceptions.md rule R144). -/
theorem test_host_states_H4 : sendStates none (hostRequest 3) [responseX2, responseX1] Block.reset =
    [.sent, .polling, .failedRetryable, .polling, .succeeded] := by decide +kernel

end Sys2Proof.Tests
end

section
/-! PROOFS. The control flow of the block, 10_state.md rule R15: what each of the six commands does to `phase` and `idx`. -/

namespace Sys2Proof.Machine

/-! ### Under a sticky fault nothing runs (60_exceptions.md rule R132) -/

section
variable {b : Block} (h : b.faulted = true)
include h

theorem Block.cmdCrcClr_of_faulted : b.cmdCrcClr = b := Block.command_of_faulted h _ _
theorem Block.cmdCrcByte_of_faulted (d : Byte) : b.cmdCrcByte d = b := Block.command_of_faulted h _ _
theorem Block.cmdEncStart_of_faulted (d : Byte) : b.cmdEncStart d = b := Block.command_of_faulted h _ _
theorem Block.cmdEncData_of_faulted (m : Option Nat) (d : Byte) : b.cmdEncData m d = b :=
  Block.command_of_faulted h _ _
theorem Block.cmdEncEnd_of_faulted : b.cmdEncEnd = b := Block.command_of_faulted h _ _
theorem Block.cmdDecByte_of_faulted (d : Byte) : b.cmdDecByte d = b := Block.command_of_faulted h _ _

theorem Block.illegalCommand_of_faulted : b.illegalCommand = b := by
  simp [Block.illegalCommand, h]

theorem Block.runCrc16_of_faulted (bytes : List Byte) : b.runCrc16 bytes = b := by
  rw [Block.runCrc16, Block.cmdCrcClr_of_faulted h, List.foldl_fixed' (Block.cmdCrcByte_of_faulted h)]

theorem Block.runEncode_of_faulted (m : Option Nat) (r : Byte) (p : List Byte) : b.runEncode m r p = b := by
  rw [Block.runEncode, Block.cmdEncStart_of_faulted h, List.foldl_fixed' (Block.cmdEncData_of_faulted h m),
    Block.cmdEncEnd_of_faulted h]

theorem Block.runDecode_of_faulted (b0 b1 b2 b3 : Byte) : b.runDecode b0 b1 b2 b3 = b := by
  simp only [Block.runDecode, Block.cmdDecByte_of_faulted h]

theorem Block.encodeCall_fst_of_faulted (m : Option Nat) (r : Int) (p : List Int) :
    (b.encodeCall m r p).1 = b := by
  obtain ⟨r', p', -, -, heq⟩ | heq := Block.encodeCall_cases m r p b
  · rw [heq]
    exact Block.runEncode_of_faulted h m r' p'
  · rw [heq]

/-- Every instruction is ignored: a frame or a pseudo-operation issues commands, and each of them is. -/
theorem Block.execute_of_faulted (m : Option Nat) (i : Instr) : b.execute m i = b := by
  cases i with
  | crcClr => exact Block.cmdCrcClr_of_faulted h
  | crcByte d => exact Block.cmdCrcByte_of_faulted h d
  | encStart d => exact Block.cmdEncStart_of_faulted h d
  | encData d => exact Block.cmdEncData_of_faulted h m d
  | encEnd => exact Block.cmdEncEnd_of_faulted h
  | decByte d => exact Block.cmdDecByte_of_faulted h d
  | reservedOp6 _ | reservedOp7 _ => exact Block.illegalCommand_of_faulted h
  | brightness p | rotate p | power p | maxIdx p | idxStep p | driveMode p =>
    exact Block.encodeCall_fst_of_faulted h m _ p
  | encode r p => exact Block.encodeCall_fst_of_faulted h m r p
  | status st lo hi => exact Block.runDecode_of_faulted h Config.statusId st lo hi
  | decode b0 b1 b2 b3 => exact Block.runDecode_of_faulted h b0 b1 b2 b3
  | crc16 bytes => exact Block.runCrc16_of_faulted h bytes

end

/-! ### The table as a function of the block -/

/-- The instruction is one of the six commands, the columns of the table of rule R15. -/
def isTableCommand : Instr → Bool
  | .crcClr | .crcByte _ | .encStart _ | .encData _ | .encEnd | .decByte _ => true
  | _ => false

/-- Where DEC_BYTE leads from a block that may take it: each byte counts, the first opens the decode, the fourth closes it. -/
def Block.nextDecode (b : Block) : Phase × Fin 4 :=
  match b.idx with
  | 0 => (.dec, 1)
  | 1 => (b.phase, 2)
  | 2 => (b.phase, 3)
  | 3 => (.idle, 0)

/-- The cell of the table of rule R15 that the block stands in, in the command's column: the next `(phase, idx)`, or none for
`F_SEQ`. An instruction that is no command has no column, and none stands there for want of one. -/
def Block.tableCell (m : Option Nat) (b : Block) : Instr → Option (Phase × Fin 4)
  | .crcClr | .crcByte _ => if b.phase == .idle then some (b.phase, b.idx) else none
  | .encStart _ => if b.phase == .idle then some (.enc, b.idx) else none
  | .encData _ => if b.phase == .enc && b.payloadHasRoom m then some (b.phase, b.idx) else none
  | .encEnd => if b.phase == .enc then some (.idle, b.idx) else none
  | .decByte _ => if b.phase != .enc then some b.nextDecode else none
  | _ => none

/-- What a cell says of the block `b'` reached from `b`. -/
def Block.Reaches (b b' : Block) : Option (Phase × Fin 4) → Prop
  | none => b' = b.seqFault
  | some (p, k) => b'.phase = p ∧ b'.idx = k ∧ b'.faulted = false

/-- A command reaches its cell as soon as its effect, where the command is legal, does. -/
theorem Block.command_reaches {b : Block} (hf : b.faulted = false) (legal : Bool) {effect : Block → Block}
    {next : Phase × Fin 4} (heffect : b.Reaches (effect b) (some next)) :
    b.Reaches (b.command legal effect) (if legal then some next else none) := by
  cases legal with
  | false => exact Block.command_of_not_legal hf effect
  | true => rwa [Block.command_of_legal hf effect]

section
variable {b : Block} (hf : b.faulted = false)
include hf

theorem Block.cmdCrcClr_reaches : b.Reaches b.cmdCrcClr (if b.phase == .idle then some (b.phase, b.idx) else none) :=
  Block.command_reaches hf _ ⟨rfl, rfl, hf⟩

theorem Block.cmdCrcByte_reaches (d : Byte) :
    b.Reaches (b.cmdCrcByte d) (if b.phase == .idle then some (b.phase, b.idx) else none) :=
  Block.command_reaches hf _ ⟨rfl, rfl, hf⟩

theorem Block.cmdEncStart_reaches (d : Byte) :
    b.Reaches (b.cmdEncStart d) (if b.phase == .idle then some (.enc, b.idx) else none) :=
  Block.command_reaches hf _ ⟨rfl, rfl, hf⟩

theorem Block.cmdEncData_reaches (m : Option Nat) (d : Byte) :
    b.Reaches (b.cmdEncData m d) (if b.phase == .enc && b.payloadHasRoom m then some (b.phase, b.idx) else none) :=
  Block.command_reaches hf _ ⟨rfl, rfl, hf⟩

theorem Block.cmdEncEnd_reaches : b.Reaches b.cmdEncEnd (if b.phase == .enc then some (.idle, b.idx) else none) :=
  Block.command_reaches hf _ ⟨rfl, rfl, hf⟩

theorem Block.takeChecksumHi_reaches (d : Byte) :
    b.Reaches (b.takeChecksumHi d) (some (.idle, 0)) := by
  obtain ⟨-, heq⟩ | ⟨-, heq⟩ := Block.takeChecksumHi_cases d b
  all_goals
    rw [heq]
    exact ⟨rfl, rfl, hf⟩

theorem Block.cmdDecByte_reaches (d : Byte) :
    b.Reaches (b.cmdDecByte d) (if b.phase != .enc then some b.nextDecode else none) := by
  refine Block.command_reaches hf _ ?_
  have hidx : b.idx = 0 ∨ b.idx = 1 ∨ b.idx = 2 ∨ b.idx = 3 := by omega
  rcases hidx with hidx | hidx | hidx | hidx <;> simp only [Block.nextDecode, hidx]
  · exact ⟨rfl, rfl, hf⟩
  · exact ⟨rfl, rfl, hf⟩
  · exact ⟨rfl, rfl, hf⟩
  · exact Block.takeChecksumHi_reaches hf d

/-- 10_state.md rule R15: every command leads from the block where its cell of the table says. -/
theorem Block.execute_reaches_tableCell (m : Option Nat) {i : Instr} (hi : isTableCommand i = true) :
    b.Reaches (b.execute m i) (b.tableCell m i) := by
  cases i with
  | crcClr => exact Block.cmdCrcClr_reaches hf
  | crcByte d => exact Block.cmdCrcByte_reaches hf d
  | encStart d => exact Block.cmdEncStart_reaches hf d
  | encData d => exact Block.cmdEncData_reaches hf m d
  | encEnd => exact Block.cmdEncEnd_reaches hf
  | decByte d => exact Block.cmdDecByte_reaches hf d
  | _ => cases hi

end

/-- The one cell with a condition: inside a request frame, ENC_DATA faults once the payload is `MAX_PAYLOAD` long. -/
theorem Block.tableCell_encData_of_enc {b : Block} (hp : b.phase = .enc) (hk : b.idx = 0) (m : Option Nat) (d : Byte) :
    b.tableCell m (.encData d) =
      match m with
      | none => some (.enc, 0)
      | some n => if n + 1 ≤ b.txbuf.length then none else some (.enc, 0) := by
  cases m with
  | none => simp [Block.tableCell, Block.payloadHasRoom, hp, hk]
  | some n =>
    obtain hfull | hroom := Nat.lt_or_ge n b.txbuf.length
    · simp [Block.tableCell, Block.payloadHasRoom, hp, hk, hfull]
    · simp [Block.tableCell, Block.payloadHasRoom, hp, hk, hroom]

/-- Settles O21: each of the thirty cells is the block's own `tableCell`, which every command reaches. -/
theorem phaseAndIdxTable : Obligations.PhaseAndIdxTable := by
  intro m b d p k i cell hmem
  refine ⟨fun hs => Block.execute_of_faulted (b.faulted_eq_true_iff.mpr hs) m i, fun hseq hill hp hk => ?_⟩
  have hcell : isTableCommand i = true ∧ b.tableCell m i = cell := by
    simp only [List.mem_cons, List.not_mem_nil, or_false, Prod.mk.injEq] at hmem
    casesm* _ ∨ _, _ ∧ _ <;> subst_vars
    on_goal -1 => exact ⟨rfl, Block.tableCell_encData_of_enc ‹_› ‹_› m d⟩
    all_goals simp [isTableCommand, Block.tableCell, Block.nextDecode, *]
  obtain ⟨hi, hcell⟩ := hcell
  have hreach := Block.execute_reaches_tableCell (b.faulted_eq_false_iff.mpr ⟨hseq, hill⟩) m hi
  rw [hcell] at hreach
  cases cell with
  | none => exact hreach
  | some next => exact hreach

end Sys2Proof.Machine
end

section
/-! PROOFS. The reset values of 10_state.md rule R22. -/

namespace Sys2Proof.Machine

@[simp] theorem State.reset_block : State.reset.block = Block.reset := rfl

/-- Settles O25: both states have the block `Block.reset`, whose fields are rule R22's. -/
theorem resetValues : Obligations.ResetValues := by
  intro b hb
  have hreset : b = Block.reset := by
    obtain rfl | ⟨s, rfl⟩ := hb
    · exact State.reset_block
    · exact s.applyReset_block
  subst hreset
  exact ⟨rfl, rfl, rfl, rfl, rfl, rfl, rfl, rfl, rfl, rfl, rfl, rfl, rfl, rfl⟩

end Sys2Proof.Machine
end

section
/-! PROOFS. The status register, 10_state.md rule R20. -/

namespace Sys2Proof.Machine

@[simp] theorem Block.sr_extractLsb'_phase (b : Block) : b.sr.extractLsb' 0 2 = b.phase.code :=
  BitVec.extractLsb'_append_eq_right

/-- Settles O34: the low two bits are the phase code, and each bit above them is one operand of the concatenation. -/
theorem statusRegisterBits : Obligations.StatusRegisterBits := by
  refine ⟨rfl, fun b => ⟨?_, ?_⟩⟩
  · rw [Block.sr_extractLsb'_phase]
    cases b.phase <;> rfl
  · simp only [Block.sr, BitVec.getLsbD_append, BitVec.getLsbD_ofBool]
    simp

end Sys2Proof.Machine
end

section
/-! PROOFS. The opcode map of the command words, 30_encoding.md rules R60 to R62: which words decode to which instruction. -/

namespace Sys2Proof

@[simp] theorem decode_cw (w : CommandWord) : decode (.cw w) = decodeWord w := rfl

/-- The row of the opcode map that an instruction stands in: `w & mask = match`, with the operand `w[7:0]` where the row has
one. An instruction of another format stands in no row. -/
def RowMatches (w : CommandWord) : Instr → Prop
  | .crcClr => w &&& 0x7FF#11 = 0x000#11
  | .crcByte d => w &&& 0x700#11 = 0x100#11 ∧ operandOf w = d
  | .encStart d => w &&& 0x700#11 = 0x200#11 ∧ operandOf w = d
  | .encData d => w &&& 0x700#11 = 0x300#11 ∧ operandOf w = d
  | .encEnd => w &&& 0x7FF#11 = 0x400#11
  | .decByte d => w &&& 0x700#11 = 0x500#11 ∧ operandOf w = d
  | .reservedOp6 d => w &&& 0x700#11 = 0x600#11 ∧ operandOf w = d
  | .reservedOp7 d => w &&& 0x700#11 = 0x700#11 ∧ operandOf w = d
  | _ => False

theorem spells_eq_true_iff {w pattern mask : CommandWord} : spells w pattern mask = true ↔ w &&& mask = pattern :=
  beq_iff_eq

/-- The full mask keeps every bit, so that a row with it is a single word. -/
theorem and_fullMask (w : CommandWord) : w &&& 0x7FF#11 = w :=
  BitVec.and_allOnes

/-- Rows with the opcode mask exclude each other: the opcode bits of a word are those of one match. -/
theorem spells_opcodeMask_of_opcode {w opcode : CommandWord} (h : w &&& 0x700#11 = opcode) (pattern : CommandWord) :
    spells w pattern 0x700#11 = (opcode == pattern) := by
  rw [spells, h]

/-- A row with the full mask excludes the words of every other opcode. -/
theorem spells_fullMask_eq_false_of_opcode {w opcode : CommandWord} (h : w &&& 0x700#11 = opcode) {pattern : CommandWord}
    (hne : pattern &&& 0x700#11 ≠ opcode) : spells w pattern 0x7FF#11 = false := by
  rw [Bool.eq_false_iff, ne_eq, spells_eq_true_iff, and_fullMask]
  rintro rfl
  exact hne h

/-- The decoder answers with an instruction only by that instruction's row. -/
theorem rowMatches_of_decodeWord {w : CommandWord} {i : Instr} (h : decodeWord w = .ok i) : RowMatches w i := by
  unfold decodeWord at h
  split_ifs at h with hrow hrow hrow hrow hrow hrow hrow hrow <;> cases h
  all_goals simpa only [RowMatches, and_true, spells_eq_true_iff] using hrow

/-- No earlier row takes a word away from the row it matches. -/
theorem decodeWord_of_rowMatches {w : CommandWord} {i : Instr} (h : RowMatches w i) : decodeWord w = .ok i := by
  cases i with
  | crcClr | encEnd =>
    rw [RowMatches, and_fullMask] at h
    subst h
    rfl
  | crcByte d | encStart d | encData d | decByte d | reservedOp6 d | reservedOp7 d =>
    obtain ⟨hop, rfl⟩ := h
    have hclr : spells w 0x000#11 0x7FF#11 = false := spells_fullMask_eq_false_of_opcode hop (by decide)
    have hend : spells w 0x400#11 0x7FF#11 = false := spells_fullMask_eq_false_of_opcode hop (by decide)
    simp [decodeWord, hclr, hend, spells_opcodeMask_of_opcode hop]
  | _ => exact h.elim

/-- 30_encoding.md rule R60: a word spells an instruction exactly when it matches the instruction's row. -/
theorem decodeWord_eq_ok_iff {w : CommandWord} {i : Instr} : decodeWord w = .ok i ↔ RowMatches w i :=
  ⟨rowMatches_of_decodeWord, decodeWord_of_rowMatches⟩

end Sys2Proof

namespace Sys2Proof.Machine

/-- Settles O2: each clause is one row of `decodeWord_eq_ok_iff`, at the word's own operand. -/
theorem opcodeMapOfCommandWords : Obligations.OpcodeMapOfCommandWords := by
  intro w
  simp only [decode_cw, decodeWord_eq_ok_iff, RowMatches, operandOf, and_true, iff_self]

end Sys2Proof.Machine
end

section
/-! PROOFS. The two commands of the CRC generator, 40_crc.md rules R82 and R83: what they do to the machine, and their words. -/

namespace Sys2Proof

/-! ### The opcode and the operand of a command word (30_encoding.md rules R59 to R62) -/

/-- The opcode mask clears the operand byte and keeps the rest. -/
theorem and_opcodeMask (w : CommandWord) : w &&& 0x700#11 = w >>> 8 <<< 8 :=
  (BitVec.shiftLeft_ushiftRight (x := w) (n := 8)).symm

/-- The words `op << 8` to `(op << 8) | 0xFF` are those with the opcode `op`. -/
theorem and_opcodeMask_of_toNat_mem_range {w : CommandWord} (op : Nat) (hlo : op * 256 ≤ w.toNat)
    (hhi : w.toNat ≤ op * 256 + 255) : w &&& 0x700#11 = BitVec.ofNat 11 (op * 256) := by
  have hop : w.toNat / 256 = op := by omega
  apply BitVec.eq_of_toNat_eq
  simp [and_opcodeMask, Nat.shiftLeft_eq, Nat.shiftRight_eq_div_pow, hop]

/-- An operand byte has no opcode bits. -/
theorem setWidth_and_opcodeMask (d : Byte) : d.setWidth 11 &&& 0x700#11 = 0x000#11 :=
  and_opcodeMask_of_toNat_mem_range 0 (Nat.zero_le _) (by simp; omega)

theorem or_setWidth_and_opcodeMask (opcode : CommandWord) (d : Byte) :
    (opcode ||| d.setWidth 11) &&& 0x700#11 = opcode &&& 0x700#11 := by
  rw [BitVec.and_or_distrib_right, setWidth_and_opcodeMask, BitVec.or_zero]

theorem operandOf_setWidth (d : Byte) : operandOf (d.setWidth 11) = d := by
  rw [operandOf, BitVec.extractLsb'_setWidth_of_le (by decide), BitVec.extractLsb'_eq_self]

theorem operandOf_or_setWidth {opcode : CommandWord} (hlow : operandOf opcode = 0x00#8) (d : Byte) :
    operandOf (opcode ||| d.setWidth 11) = d := by
  calc operandOf (opcode ||| d.setWidth 11)
      = operandOf opcode ||| operandOf (d.setWidth 11) := BitVec.extractLsb'_or
    _ = d := by rw [hlow, operandOf_setWidth, BitVec.zero_or]

/-- The word `0x100 | d` of CRC_BYTE. -/
theorem decodeWord_crcByte (d : Byte) : decodeWord (0x100#11 ||| d.setWidth 11) = .ok (.crcByte d) :=
  decodeWord_of_rowMatches ⟨or_setWidth_and_opcodeMask _ d, operandOf_or_setWidth rfl d⟩

/-- 30_encoding.md rule R62: with opcode 0, every word but CRC_CLR's own is reserved. -/
theorem decodeWord_crcClrWithOperand {w : CommandWord} (hop : w &&& 0x700#11 = 0x000#11) (hne : w ≠ 0x000#11) :
    decodeWord w = .error .crcClrWithOperand := by
  have hclr : spells w 0x000#11 0x7FF#11 = false := by
    rwa [Bool.eq_false_iff, ne_eq, spells_eq_true_iff, and_fullMask]
  have hend : spells w 0x400#11 0x7FF#11 = false := spells_fullMask_eq_false_of_opcode hop (by decide)
  simp [decodeWord, hclr, hend, spells_opcodeMask_of_opcode hop]

end Sys2Proof

namespace Sys2Proof.Machine

/-! ### A command of the block as a whole next state of the machine (60_exceptions.md rule R128) -/

/-- An instruction that is one command of the block, legal exactly when `P` holds: it is ignored under a sticky fault, sets
only `F_SEQ` where it is not legal, and has its effect otherwise. -/
theorem exec_command_clauses {i : Instr} {s : State} {legal : Bool} {P : Prop} {effect : Block → Block}
    (hexec : exec i s = .next { s with block := s.block.command legal effect }) (hlegal : legal = true ↔ P) :
    (s.block.fSeq = true ∨ s.block.fIll = true → exec i s = .next s) ∧
    (s.block.fSeq = false → s.block.fIll = false → ¬ P →
      exec i s = .next { s with block := { s.block with fSeq := true } }) ∧
    (s.block.fSeq = false → s.block.fIll = false → P → exec i s = .next { s with block := effect s.block }) := by
  rw [hexec]
  refine ⟨fun hs => ?_, fun hseq hill hP => ?_, fun hseq hill hP => ?_⟩
  · rw [Block.command_of_faulted (s.block.faulted_eq_true_iff.mpr hs)]
  · obtain rfl : legal = false := Bool.eq_false_iff.mpr (mt hlegal.mp hP)
    rw [Block.command_of_not_legal (s.block.faulted_eq_false_iff.mpr ⟨hseq, hill⟩), Block.seqFault]
  · obtain rfl : legal = true := hlegal.mpr hP
    rw [Block.command_of_legal (s.block.faulted_eq_false_iff.mpr ⟨hseq, hill⟩)]

/-- Settles O14: CRC_CLR is a command legal in IDLE, and the other words of its opcode are reserved. -/
theorem crcClrCommand : Obligations.CrcClrCommand := by
  refine ⟨fun s => exec_command_clauses (effect := fun b => { b with crc := 0x0000#16 }) rfl beq_iff_eq,
    decodeWord_of_rowMatches (BitVec.zero_and), fun w hlo hhi => ?_⟩
  have hne : w ≠ 0x000#11 := by
    rintro rfl
    exact absurd hlo (by decide)
  exact decodeWord_crcClrWithOperand (and_opcodeMask_of_toNat_mem_range 0 (Nat.zero_le _) hhi) hne

/-- Settles O15: CRC_BYTE is a command legal in IDLE, and its word matches its row with the operand `d`. -/
theorem crcByteCommand : Obligations.CrcByteCommand := by
  intro d s
  obtain ⟨hignored, hfault, heffect⟩ :=
    exec_command_clauses (i := .crcByte d) (s := s) (effect := fun b => { b with crc := crcByte b.crc d }) rfl beq_iff_eq
  exact ⟨hignored, hfault, heffect, decodeWord_crcByte d⟩

end Sys2Proof.Machine
end

section
/-! PROOFS. The transaction level of the encoder, 41_encode.md rules R90 to R92: narrowing, and the layout of a frame. -/

namespace Sys2Proof.Machine

/-! ### Narrowing one integer (41_encode.md rule R91) -/

theorem narrow_toNat {v : Int} (h0 : 0 ≤ v) (h255 : v ≤ 255) : ((narrow v).toNat : Int) = v := by
  rw [narrow, BitVec.toNat_ofInt]
  omega

theorem narrow_of_toNat (b : Byte) : narrow (b.toNat : Int) = b := by
  rw [narrow, BitVec.ofInt_natCast, BitVec.ofNat_toNat, BitVec.setWidth_eq]

@[simp] theorem toByte_of_toNat (b : Byte) : toByte (b.toNat : Int) = .ok b :=
  (toByte_ok_iff _ _).mpr ⟨by omega, by omega, (narrow_of_toNat b).symm⟩

/-- Narrowing has one error, and raises it for the integers that no byte holds. -/
theorem toByte_eq_error_iff {v : Int} {e : CodecError} :
    toByte v = .error e ↔ (v < 0 ∨ 255 < v) ∧ e = .validationError := by
  have hfits : fitsByte v = true ↔ ¬ (v < 0 ∨ 255 < v) := by simp [fitsByte]
  rw [toByte]
  split_ifs with h
  · simp [hfits.mp h]
  · simp [not_not.mp (mt hfits.mpr h), eq_comm]

/-- Settles O36: inside the range the result is the narrowed integer, outside it the one error. -/
theorem toByteFitsOrFails : Obligations.ToByteFitsOrFails := by
  intro v
  refine ⟨fun h0 h255 => ⟨narrow v, ?_, narrow_toNat h0 h255⟩, fun hout => toByte_eq_error_iff.mpr ⟨hout, rfl⟩⟩
  exact (toByte_ok_iff v _).mpr ⟨h0, h255, rfl⟩

/-! ### Narrowing a list, all or nothing (41_encode.md rule R92) -/

theorem toBytes_cons_ok {v : Int} {vs : List Int} {b : Byte} {bs : List Byte} (hv : toByte v = .ok b)
    (hvs : toBytes vs = .ok bs) : toBytes (v :: vs) = .ok (b :: bs) := by
  simp [toBytes, hv, hvs]

theorem toBytes_cons_error_head {v : Int} (hv : toByte v = .error .validationError) (vs : List Int) :
    toBytes (v :: vs) = .error .validationError := by
  simp [toBytes, hv]

theorem toBytes_cons_error_tail {vs : List Int} (hvs : toBytes vs = .error .validationError) (v : Int) :
    toBytes (v :: vs) = .error .validationError := by
  simp [toBytes, hvs]

/-- The integers that bytes hold narrow to those bytes. -/
theorem toBytes_map_toNat (bs : List Byte) : toBytes (bs.map fun b => (b.toNat : Int)) = .ok bs := by
  induction bs with
  | nil => rfl
  | cons b bs ih => exact toBytes_cons_ok (toByte_of_toNat b) ih

/-- One element out of range fails the whole list, wherever it stands. -/
theorem toBytes_error_of_mem {v : Int} {vs : List Int} (hmem : v ∈ vs) (hout : v < 0 ∨ 255 < v) :
    toBytes vs = .error .validationError := by
  induction hmem with
  | head vs => exact toBytes_cons_error_head (toByte_eq_error_iff.mpr ⟨hout, rfl⟩) vs
  | tail w _ ih => exact toBytes_cons_error_tail ih w

/-! ### The frame (41_encode.md rule R90) -/

theorem encodeFrame_ok {r : Int} {p : List Int} {body : List Byte} (h : toBytes (r :: p) = .ok body) :
    encodeFrame r p = .ok (frameOf body) := by
  simp [encodeFrame, h]

theorem encodeFrame_error {r : Int} {p : List Int} {e : CodecError} (h : toBytes (r :: p) = .error e) :
    encodeFrame r p = .error e := by
  simp [encodeFrame, h]

@[simp] theorem frameOf_length (body : List Byte) : (frameOf body).length = body.length + 2 := by
  simp [frameOf, checksumBytes]

/-- Before the checksum a frame is its body. -/
theorem frameOf_getElem?_of_lt {body : List Byte} {k : Nat} (h : k < body.length) : (frameOf body)[k]? = body[k]? :=
  List.getElem?_append_left h

theorem frameOf_getElem?_checksumLo (body : List Byte) :
    (frameOf body)[body.length]? = some (checksumLo (crc16 body)) := by
  simp [frameOf, checksumBytes]

theorem frameOf_getElem?_checksumHi (body : List Byte) :
    (frameOf body)[body.length + 1]? = some (checksumHi (crc16 body)) := by
  simp [frameOf, checksumBytes]

/-- The two checksum bytes hold the checksum (30_encoding.md rule R47). -/
theorem toNat_eq_checksumLo_add_checksumHi (c : Crc) : c.toNat = (checksumLo c).toNat + 256 * (checksumHi c).toNat := by
  rw [checksumLo, checksumHi, BitVec.extractLsb'_toNat, BitVec.extractLsb'_toNat, Nat.shiftRight_eq_div_pow,
    Nat.shiftRight_eq_div_pow]
  omega

/-- Settles O38: bytes narrow to themselves, so the frame is that of the body `r :: p`, read at each offset; and an element out
of range fails the narrowing of the body. -/
theorem encodedFrameLayout : Obligations.EncodedFrameLayout := by
  refine ⟨fun r p => ?_, fun r p ⟨v, hmem, hout⟩ => encodeFrame_error (toBytes_error_of_mem hmem hout)⟩
  refine ⟨frameOf (r :: p), encodeFrame_ok (toBytes_map_toNat (r :: p)), frameOf_length _, rfl, fun k hk => ?_,
    _, _, frameOf_getElem?_checksumLo _, frameOf_getElem?_checksumHi _, toNat_eq_checksumLo_add_checksumHi _⟩
  rw [Nat.add_comm, frameOf_getElem?_of_lt (Nat.succ_lt_succ hk), List.getElem?_cons_succ]

end Sys2Proof.Machine
end

section
/-! PROOFS. The two commands that open and close a request frame, 41_encode.md rules R95 and R97: what they do to the machine,
and their words. -/

namespace Sys2Proof

/-- The word `0x200 | d` of ENC_START. -/
theorem decodeWord_encStart (d : Byte) : decodeWord (0x200#11 ||| d.setWidth 11) = .ok (.encStart d) :=
  decodeWord_of_rowMatches ⟨or_setWidth_and_opcodeMask _ d, operandOf_or_setWidth rfl d⟩

/-- 30_encoding.md rule R62: with opcode 4, every word but ENC_END's own is reserved. -/
theorem decodeWord_encEndWithOperand {w : CommandWord} (hop : w &&& 0x700#11 = 0x400#11) (hne : w ≠ 0x400#11) :
    decodeWord w = .error .encEndWithOperand := by
  have hclr : spells w 0x000#11 0x7FF#11 = false := spells_fullMask_eq_false_of_opcode hop (by decide)
  have hend : spells w 0x400#11 0x7FF#11 = false := by
    rwa [Bool.eq_false_iff, ne_eq, spells_eq_true_iff, and_fullMask]
  simp [decodeWord, hclr, hend, spells_opcodeMask_of_opcode hop]

end Sys2Proof

namespace Sys2Proof.Machine

/-- Settles O16: ENC_START is a command legal in IDLE, and its word matches its row with the operand `d`. -/
theorem encStartCommand : Obligations.EncStartCommand := by
  intro d s
  obtain ⟨hignored, hfault, heffect⟩ :=
    exec_command_clauses (i := .encStart d) (s := s)
      (effect := fun b => { b with txbuf := [d], txv := false, crc := crcByte 0x0000#16 d, phase := .enc })
      rfl beq_iff_eq
  exact ⟨hignored, hfault, heffect, decodeWord_encStart d⟩

/-- The two appends of the checksum are one, and write nothing but the buffer. -/
theorem Block.appendChecksum_eq (b : Block) :
    b.appendChecksum = { b with txbuf := b.txbuf ++ [checksumLo b.crc, checksumHi b.crc] } := by
  rw [Block.appendChecksum, Block.append, Block.append, List.append_assoc, List.singleton_append]

theorem exec_encEnd (s : State) :
    exec .encEnd s = .next { s with block := s.block.command (s.block.phase == .enc) fun b =>
      { b with txbuf := b.txbuf ++ [checksumLo b.crc, checksumHi b.crc], txv := true, phase := .idle } } := by
  simp only [exec, execEncEnd, State.onBlock, Block.cmdEncEnd, Block.appendChecksum_eq]

/-- Settles O18: ENC_END is a command legal in ENC, and the other words of its opcode are reserved. -/
theorem encEndCommand : Obligations.EncEndCommand := by
  refine ⟨fun s => exec_command_clauses (exec_encEnd s) beq_iff_eq, decodeWord_of_rowMatches (and_fullMask _),
    fun w hlo hhi => ?_⟩
  have hne : w ≠ 0x400#11 := by
    rintro rfl
    exact absurd hlo (by decide)
  exact decodeWord_encEndWithOperand (and_opcodeMask_of_toNat_mem_range 4 (Nat.le_of_succ_le hlo) hhi) hne

end Sys2Proof.Machine
end

section
/-! PROOFS. The checksum comparison of the decoder, 42_decode.md rules R105 and R110: on the transaction level, and at the
fourth DEC_BYTE, with what DEC_BYTE does to the machine and its word. -/

namespace Sys2Proof

/-- The word `0x500 | d` of DEC_BYTE. -/
theorem decodeWord_decByte (d : Byte) : decodeWord (0x500#11 ||| d.setWidth 11) = .ok (.decByte d) :=
  decodeWord_of_rowMatches ⟨or_setWidth_and_opcodeMask _ d, operandOf_or_setWidth rfl d⟩

end Sys2Proof

namespace Sys2Proof.Machine

/-! ### The received number (20_memory.md rule R34) -/

theorem assemble_toNat (lo hi : Byte) : (assemble lo hi).toNat = lo.toNat + 256 * hi.toNat := by
  calc (assemble lo hi).toNat
      = hi.toNat <<< 8 + lo.toNat := by
        rw [assemble, BitVec.toNat_append, Nat.shiftLeft_add_eq_or_of_lt lo.isLt]
    _ = lo.toNat + 256 * hi.toNat := by rw [Nat.shiftLeft_eq]; omega

/-- The comparison of all 16 bits is the comparison of the numbers. -/
theorem eq_assemble_iff {c : Crc} {lo hi : Byte} : c = assemble lo hi ↔ c.toNat = lo.toNat + 256 * hi.toNat := by
  rw [← BitVec.toNat_inj, assemble_toNat]

/-- Settles O40: `decode_status` branches on the comparison of `eq_assemble_iff`. -/
theorem decodeStatusComparesChecksum : Obligations.DecodeStatusComparesChecksum := by
  intro f0 f1 f2 f3
  exact ⟨fun h => if_pos (eq_assemble_iff.mpr h), fun h => if_neg (mt eq_assemble_iff.mp h)⟩

/-! ### The four bytes of a response (42_decode.md rule R110) -/

/-- The effect of DEC_BYTE where it is legal: the byte that `idx` says is taken. -/
def Block.takeByte (d : Byte) (b : Block) : Block :=
  match b.idx with
  | 0 => b.takeCmdId d
  | 1 => b.takeStatus d
  | 2 => b.takeChecksumLo d
  | 3 => b.takeChecksumHi d

/-- DEC_BYTE is a command legal outside ENC, with the effect `takeByte`. -/
theorem exec_decByte (d : Byte) (s : State) :
    exec (.decByte d) s = .next { s with block := s.block.command (s.block.phase != .enc) (Block.takeByte d) } := rfl

section
variable {b : Block} (d : Byte)

theorem Block.takeByte_of_idx_zero (hk : b.idx = 0) : b.takeByte d = b.takeCmdId d := by
  rw [Block.takeByte, hk]

theorem Block.takeByte_of_idx_one (hk : b.idx = 1) : b.takeByte d = b.takeStatus d := by
  rw [Block.takeByte, hk]

theorem Block.takeByte_of_idx_two (hk : b.idx = 2) : b.takeByte d = b.takeChecksumLo d := by
  rw [Block.takeByte, hk]

theorem Block.takeByte_of_idx_three (hk : b.idx = 3) : b.takeByte d = b.takeChecksumHi d := by
  rw [Block.takeByte, hk]

theorem Block.takeChecksumHi_of_match (h : b.crc.toNat = b.rLo.toNat + 256 * d.toNat) :
    b.takeChecksumHi d =
      { b with resCmd := b.rCmd, resStatus := b.rStatus, dv := true, phase := .idle, idx := 0 } :=
  if_pos (eq_assemble_iff.mpr h).symm

theorem Block.takeChecksumHi_of_mismatch (h : b.crc.toNat ≠ b.rLo.toNat + 256 * d.toNat) :
    b.takeChecksumHi d = { b with fChk := true, phase := .idle, idx := 0 } :=
  if_neg fun heq => h (eq_assemble_iff.mp heq.symm)

end

/-- Settles O19: DEC_BYTE is a command legal outside ENC; `idx` picks the byte it takes, and the comparison of the numbers
decides the fourth. -/
theorem decByteCommand : Obligations.DecByteCommand := by
  intro d s
  obtain ⟨hignored, hfault, heffect⟩ := exec_command_clauses (exec_decByte d s) bne_iff_ne
  refine ⟨hignored, fun hseq hill hp => hfault hseq hill (not_not.mpr hp), fun hseq hill hp hk => ?_,
    fun hseq hill hp hk => ?_, fun hseq hill hp hk => ?_, fun hseq hill hp hk hmatch => ?_,
    fun hseq hill hp hk hmismatch => ?_, decodeWord_decByte d⟩
  · rw [heffect hseq hill hp, Block.takeByte_of_idx_zero d hk, Block.takeCmdId]
  · rw [heffect hseq hill hp, Block.takeByte_of_idx_one d hk, Block.takeStatus]
  · rw [heffect hseq hill hp, Block.takeByte_of_idx_two d hk, Block.takeChecksumLo]
  · rw [heffect hseq hill hp, Block.takeByte_of_idx_three d hk, Block.takeChecksumHi_of_match d hmatch]
  · rw [heffect hseq hill hp, Block.takeByte_of_idx_three d hk, Block.takeChecksumHi_of_mismatch d hmismatch]

end Sys2Proof.Machine
end

section
/-! PROOFS. The round trips of the encoder, 30_encoding.md sections B.1 to B.5: a word and its opcode and operand, an
instruction and what is presented for it, a pseudo-operation and its words. -/

namespace Sys2Proof

/-! ### A command word is its opcode and its operand (30_encoding.md rules R59, R61) -/

@[simp] theorem operandOf_commandWord (op : BitVec 3) (d : Byte) : operandOf (commandWord op d) = d :=
  BitVec.extractLsb'_append_eq_right

theorem commandWord_and_opcodeMask (op : BitVec 3) (d : Byte) :
    commandWord op d &&& 0x700#11 = commandWord op 0x00#8 := by
  calc (op ++ d) &&& (BitVec.allOnes 3 ++ 0#8)
      = (op &&& BitVec.allOnes 3) ++ (d &&& 0#8) := BitVec.and_append
    _ = op ++ 0#8 := by rw [BitVec.and_allOnes, BitVec.and_zero]

/-- A word with the opcode `op` is the command word of `op` and the word's operand. -/
theorem commandWord_operandOf {w : CommandWord} {op : BitVec 3} (h : w &&& 0x700#11 = commandWord op 0x00#8) :
    commandWord op (operandOf w) = w := by
  have hself : commandWord (w.extractLsb' 8 3) (operandOf w) = w := BitVec.extractLsb'_append_extractLsb'
  rw [← hself, commandWord_and_opcodeMask] at h
  rwa [← (BitVec.append_left_inj _).mp h]

/-! ### An instruction and what is presented for it (30_encoding.md rules R45, R46, R60, R65) -/

theorem decodeWord_commandWord_crcByte (d : Byte) : decodeWord (commandWord 0b001#3 d) = .ok (.crcByte d) :=
  decodeWord_of_rowMatches ⟨commandWord_and_opcodeMask _ d, operandOf_commandWord _ d⟩

theorem decodeWord_commandWord_encStart (d : Byte) : decodeWord (commandWord 0b010#3 d) = .ok (.encStart d) :=
  decodeWord_of_rowMatches ⟨commandWord_and_opcodeMask _ d, operandOf_commandWord _ d⟩

theorem decodeWord_commandWord_encData (d : Byte) : decodeWord (commandWord 0b011#3 d) = .ok (.encData d) :=
  decodeWord_of_rowMatches ⟨commandWord_and_opcodeMask _ d, operandOf_commandWord _ d⟩

theorem decodeWord_commandWord_decByte (d : Byte) : decodeWord (commandWord 0b101#3 d) = .ok (.decByte d) :=
  decodeWord_of_rowMatches ⟨commandWord_and_opcodeMask _ d, operandOf_commandWord _ d⟩

theorem decodeWord_commandWord_reservedOp6 (d : Byte) : decodeWord (commandWord 0b110#3 d) = .ok (.reservedOp6 d) :=
  decodeWord_of_rowMatches ⟨commandWord_and_opcodeMask _ d, operandOf_commandWord _ d⟩

theorem decodeWord_commandWord_reservedOp7 (d : Byte) : decodeWord (commandWord 0b111#3 d) = .ok (.reservedOp7 d) :=
  decodeWord_of_rowMatches ⟨commandWord_and_opcodeMask _ d, operandOf_commandWord _ d⟩

theorem decodeWord_commandWord_crcClr : decodeWord (commandWord 0b000#3 0x00#8) = .ok .crcClr := rfl

theorem decodeWord_commandWord_encEnd : decodeWord (commandWord 0b100#3 0x00#8) = .ok .encEnd := rfl

/-- Settles O3: a command by its word's row, a request frame by its register, a response by its `cmd_id`, a line as it
stands. -/
theorem decodeAfterEncode : Obligations.DecodeAfterEncode := by
  intro i
  cases i with
  | crcClr | encEnd => rfl
  | crcByte d => exact decodeWord_commandWord_crcByte d
  | encStart d => exact decodeWord_commandWord_encStart d
  | encData d => exact decodeWord_commandWord_encData d
  | decByte d => exact decodeWord_commandWord_decByte d
  | reservedOp6 d => exact decodeWord_commandWord_reservedOp6 d
  | reservedOp7 d => exact decodeWord_commandWord_reservedOp7 d
  | brightness p | rotate p | power p | maxIdx p | idxStep p | driveMode p => rfl
  | status st lo hi => rfl
  | crc16 bs | encode r p | decode b0 b1 b2 b3 => rfl

/-- Settles O4: the row that the word matches fixes its opcode, and the decoder keeps its operand. -/
theorem encodeAfterDecodeOfWords : Obligations.EncodeAfterDecodeOfWords := by
  intro w i h
  have hrow : RowMatches w i := rowMatches_of_decodeWord h
  cases i with
  | crcClr | encEnd =>
    rw [RowMatches, and_fullMask] at hrow
    rw [hrow]
    rfl
  | crcByte d | encStart d | encData d | decByte d | reservedOp6 d | reservedOp7 d =>
    obtain ⟨hop, rfl⟩ := hrow
    exact congrArg Form.cw (commandWord_operandOf hop)
  | _ => exact hrow.elim

/-! ### A pseudo-operation and its words (30_encoding.md rule R65) -/

theorem crcByteRun_map_commandWord (bs : List Byte) : crcByteRun (bs.map (commandWord 0b001#3)) = some bs := by
  induction bs with
  | nil => rfl
  | cons b bs ih => simp [crcByteRun, decodeWord_commandWord_crcByte, ih]

theorem decByteRun_map_commandWord (bs : List Byte) : decByteRun (bs.map (commandWord 0b101#3)) = some bs := by
  induction bs with
  | nil => rfl
  | cons b bs ih => simp [decByteRun, decodeWord_commandWord_decByte, ih]

theorem encDataRun_map_commandWord (bs : List Byte) :
    encDataRun (bs.map (commandWord 0b011#3) ++ [commandWord 0b100#3 0x00#8]) = some bs := by
  induction bs with
  | nil => rfl
  | cons b bs ih => simp [encDataRun, decodeWord_commandWord_encData, ih]

theorem decodeSequence_encodeWords (r : Byte) (p : List Byte) :
    decodeSequence (encodeWords r p) = some (.encode (byteValue r) (p.map byteValue)) := by
  simp [encodeWords, decodeSequence, decodeWord_commandWord_encStart, encDataRun_map_commandWord]

theorem fitsByte_eq_true_iff {v : Int} : fitsByte v = true ↔ 0 ≤ v ∧ v ≤ 255 := by
  simp [fitsByte]

theorem byteValue_narrow {v : Int} (h : fitsByte v = true) : byteValue (narrow v) = v := by
  obtain ⟨h0, h255⟩ := fitsByte_eq_true_iff.mp h
  exact Machine.narrow_toNat h0 h255

theorem map_byteValue_narrow {p : List Int} (h : p.all fitsByte = true) : (p.map narrow).map byteValue = p := by
  rw [List.map_map]
  exact (List.map_congr_left fun v hv => byteValue_narrow (List.all_eq_true.mp h v hv)).trans p.map_id

/-- Settles O5: the first word picks the pseudo-operation, and the run of words after it gives back the operands. -/
theorem pseudoOperationWordsRoundTrip : Obligations.PseudoOperationWordsRoundTrip := by
  refine ⟨fun bs => ?_, fun r p hwf => ?_, fun b0 b1 b2 b3 => ?_⟩
  · simp [commandWords, decodeSequence, decodeWord_commandWord_crcClr, crcByteRun_map_commandWord]
  · obtain ⟨hr, hp⟩ : fitsByte r = true ∧ p.all fitsByte = true := Bool.and_eq_true_iff.mp hwf
    rw [commandWords, decodeSequence_encodeWords, byteValue_narrow hr, map_byteValue_narrow hp]
  · change decodeSequence (commandWord 0b101#3 b0 :: [b1, b2, b3].map (commandWord 0b101#3)) = _
    simp only [decodeSequence, decodeWord_commandWord_decByte, decByteRun_map_commandWord]

/-! ### Words written out, and how many are reserved (30_encoding.md rule R62) -/

/-- Settles O1: the words are fixed, and each matches its row with the operand written. -/
theorem writtenOutWordsDecode : Obligations.WrittenOutWordsDecode := by
  refine ⟨?_, ?_, ?_, ?_, ?_, ?_, ?_, ?_, rfl, rfl⟩
  all_goals exact decodeWord_of_rowMatches (by simp [RowMatches, operandOf])

/-- What the decoder answers for a reserved word: no instruction, or one of the two reserved opcodes. -/
def isReservedAnswer : Except DecodeError Instr → Bool
  | .error _ | .ok (.reservedOp6 _) | .ok (.reservedOp7 _) => true
  | .ok _ => false

/-- The reserved words by their numbers. -/
def isReservedNumber (n : Nat) : Bool := decide ((0x001 ≤ n ∧ n ≤ 0x0FF) ∨ (0x401 ≤ n ∧ n ≤ 0x4FF) ∨ 0x600 ≤ n)

/-- 30_encoding.md rule R62, opcode by opcode. -/
theorem isReservedAnswer_decodeWord (w : CommandWord) : isReservedAnswer (decodeWord w) = isReservedNumber w.toNat := by
  have hmask (op : Nat) (h : w.toNat / 256 = op) : w &&& 0x700#11 = BitVec.ofNat 11 (op * 256) :=
    and_opcodeMask_of_toNat_mem_range op (by omega) (by omega)
  have hreserved {i} (hrow : RowMatches w i) (hi : isReservedAnswer (.ok i) = isReservedNumber w.toNat) :
      isReservedAnswer (decodeWord w) = isReservedNumber w.toNat := by
    rwa [decodeWord_of_rowMatches hrow]
  have hlt : w.toNat / 256 < 8 := by omega
  rcases hop : w.toNat / 256 with _ | _ | _ | _ | _ | _ | _ | _ | k
  · by_cases hw : w = 0x000#11
    · subst hw; rfl
    · have hne : w.toNat ≠ 0 := fun h => hw (BitVec.eq_of_toNat_eq h)
      rw [decodeWord_crcClrWithOperand (hmask 0 hop) hw]
      exact (decide_eq_true (by omega)).symm
  · exact hreserved (i := .crcByte _) ⟨hmask 1 hop, rfl⟩ (decide_eq_false (by omega)).symm
  · exact hreserved (i := .encStart _) ⟨hmask 2 hop, rfl⟩ (decide_eq_false (by omega)).symm
  · exact hreserved (i := .encData _) ⟨hmask 3 hop, rfl⟩ (decide_eq_false (by omega)).symm
  · by_cases hw : w = 0x400#11
    · subst hw; rfl
    · have hne : w.toNat ≠ 0x400 := fun h => hw (BitVec.eq_of_toNat_eq h)
      rw [decodeWord_encEndWithOperand (hmask 4 hop) hw]
      exact (decide_eq_true (by omega)).symm
  · exact hreserved (i := .decByte _) ⟨hmask 5 hop, rfl⟩ (decide_eq_false (by omega)).symm
  · exact hreserved (i := .reservedOp6 _) ⟨hmask 6 hop, rfl⟩ (decide_eq_true (by omega)).symm
  · exact hreserved (i := .reservedOp7 _) ⟨hmask 7 hop, rfl⟩ (decide_eq_true (by omega)).symm
  · omega

section
variable {p : Nat → Bool} {start len : Nat}

theorem countP_range'_of_all (h : ∀ n, start ≤ n → n < start + len → p n = true) :
    (List.range' start len).countP p = len := by
  rw [List.countP_eq_length.mpr fun n hn => ?_, List.length_range']
  obtain ⟨hlo, hhi⟩ := List.mem_range'_1.mp hn
  exact h n hlo hhi

theorem countP_range'_of_none (h : ∀ n, start ≤ n → n < start + len → p n = false) :
    (List.range' start len).countP p = 0 := by
  rw [List.countP_eq_zero]
  intro n hn
  obtain ⟨hlo, hhi⟩ := List.mem_range'_1.mp hn
  simp [h n hlo hhi]

end

/-- The numbers below 2048 in the blocks in which they are reserved or not. -/
theorem range_2048_eq_blocks : List.range 2048 =
    List.range' 0 1 ++ List.range' 0x001 255 ++ List.range' 0x100 769 ++ List.range' 0x401 255 ++
      List.range' 0x500 256 ++ List.range' 0x600 512 := by
  have hjoin {start len start' len' : Nat} (h : start + len = start') :
      List.range' start len ++ List.range' start' len' = List.range' start (len + len') := by
    rw [← h, List.range'_append_1]
  rw [hjoin rfl, hjoin rfl, hjoin rfl, hjoin rfl, hjoin rfl, List.range_eq_range']

theorem countP_isReservedNumber : (List.range 2048).countP isReservedNumber = 1022 := by
  simp only [range_2048_eq_blocks, List.countP_append]
  rw [countP_range'_of_none, countP_range'_of_all, countP_range'_of_none, countP_range'_of_all, countP_range'_of_none,
    countP_range'_of_all]
  all_goals
    intro n hlo hhi
    simp only [isReservedNumber, decide_eq_true_eq, decide_eq_false_iff_not]
    omega

/-- Settles O24: the words that the decoder holds for reserved are counted by their numbers. -/
theorem reservedWordCount : Obligations.ReservedWordCount := by
  unfold Obligations.ReservedWordCount
  rw [List.countP_map, ← countP_isReservedNumber]
  refine List.countP_congr fun n hn => ?_
  have hw := isReservedAnswer_decodeWord (BitVec.ofNat 11 n)
  rw [BitVec.toNat_ofNat, Nat.mod_eq_of_lt (List.mem_range.mp hn)] at hw
  rw [← hw]
  simp only [Function.comp, decode_cw]
  cases decodeWord (BitVec.ofNat 11 n) with
  | error e => rfl
  | ok i => cases i <;> rfl

end Sys2Proof
end

section
/-! PROOFS. The generator as a linear map on 16 bits, 40_crc.md sections 2 and 3: a shift step and a byte in numbers and bits,
and the algebra of the message CRC. -/

namespace Sys2Proof.Machine

/-! ### One shift step (40_crc.md rule R76) -/

/-- Bit 15 is the 32768s digit. -/
theorem getLsbD_15_eq (c : Crc) : c.getLsbD 15 = decide (32768 ≤ c.toNat) := by
  have hmsb := BitVec.msb_eq_decide c
  rwa [BitVec.msb_eq_getLsbD_last] at hmsb

theorem crcBit_of_le {c : Crc} (h : 32768 ≤ c.toNat) : crcBit c = (c <<< 1) ^^^ 0x1021#16 :=
  if_pos (by rw [getLsbD_15_eq, decide_eq_true h])

theorem crcBit_of_lt {c : Crc} (h : c.toNat < 32768) : crcBit c = c <<< 1 :=
  if_neg (by rw [getLsbD_15_eq, decide_eq_true_eq]; omega)

theorem shiftLeft_one_toNat (c : Crc) : (c <<< 1).toNat = (2 * c.toNat) % 65536 := by
  rw [BitVec.toNat_shiftLeft, Nat.shiftLeft_eq, Nat.mul_comm]

/-- Settles O6: the shift is a doubling in 16 bits, and bit 15 decides on the polynomial. -/
theorem crcBitShiftStep : Obligations.CrcBitShiftStep := by
  intro c
  refine ⟨fun h => ?_, fun h => ?_⟩
  · rw [crcBit_of_le h, BitVec.toNat_xor, shiftLeft_one_toNat]
    rfl
  · rw [crcBit_of_lt h, shiftLeft_one_toNat, Nat.mod_eq_of_lt (by omega)]

/-! ### The bit-serial form of a byte (40_crc.md rule R77) -/

/-- One step of the bit-serial form: shift, and XOR the polynomial when bit 15 and the message bit differ. -/
def serialStep (a : Crc) (bit : Bool) : Crc := if (a.getLsbD 15 ^^ bit) then (a <<< 1) ^^^ 0x1021#16 else a <<< 1

/-- A shift step carries a pending message `x` along: its top bit joins the decision, the rest moves up. -/
theorem crcBit_xor_pending (a x : Crc) : crcBit (a ^^^ x) = serialStep a (x.getLsbD 15) ^^^ (x <<< 1) := by
  rw [crcBit, serialStep, BitVec.getLsbD_xor, BitVec.shiftLeft_xor_distrib]
  split
  · rw [BitVec.xor_assoc, BitVec.xor_comm (x <<< 1), ← BitVec.xor_assoc]
    rfl
  · rfl

/-- The byte `b` at the top, moved up by `k` places. -/
def pendingByte (b : Byte) (k : Nat) : Crc := b.setWidth 16 <<< (8 + k)

theorem pendingByte_getLsbD_15 (b : Byte) {k : Nat} (hk : k ≤ 7) : (pendingByte b k).getLsbD 15 = b.getLsbD (7 - k) := by
  rw [pendingByte, BitVec.getLsbD_shiftLeft, BitVec.getLsbD_setWidth, show 15 - (8 + k) = 7 - k by omega]
  simp only [decide_eq_true (show 15 < 16 by omega), decide_eq_false (show ¬ 15 < 8 + k by omega),
    decide_eq_true (show 7 - k < 16 by omega), Bool.not_false, Bool.true_and]

theorem pendingByte_shiftLeft_one (b : Byte) (k : Nat) : pendingByte b k <<< 1 = pendingByte b (k + 1) := by
  rw [pendingByte, pendingByte, ← BitVec.shiftLeft_add, Nat.add_assoc]

theorem pendingByte_eight (b : Byte) : pendingByte b 8 = 0x0000#16 :=
  BitVec.shiftLeft_eq_zero (by decide)

theorem crcBit_xor_pendingByte (a : Crc) (b : Byte) {k : Nat} (hk : k ≤ 7) :
    crcBit (a ^^^ pendingByte b k) = serialStep a (b.getLsbD (7 - k)) ^^^ pendingByte b (k + 1) := by
  rw [crcBit_xor_pending, pendingByte_getLsbD_15 b hk, pendingByte_shiftLeft_one]

/-- Eight shift steps use up the byte's eight bits, bit 7 first. -/
theorem crcByte_eq_serial (c : Crc) (b : Byte) :
    crcByte c b = [7, 6, 5, 4, 3, 2, 1, 0].foldl (fun a k => serialStep a (b.getLsbD k)) c := by
  change crcShift 8 (c ^^^ pendingByte b 0) = _
  simp only [crcShift, crcBit_xor_pendingByte, Nat.reduceLeDiff, Nat.reduceSub, Nat.reduceAdd, Nat.zero_le, List.foldl,
    pendingByte_eight, BitVec.xor_zero]

/-- Settles O7: the eight steps are `crcByte` unfolded, and the second form is `crcByte_eq_serial`. -/
theorem crcByteEqualsBitSerialForm : Obligations.CrcByteEqualsBitSerialForm :=
  fun c b => ⟨rfl, crcByte_eq_serial c b⟩

/-! ### Linearity and injectivity of the shift -/

/-- The polynomial enters exactly with bit 15. -/
theorem crcBit_eq_xor_ite (c : Crc) : crcBit c = (if c.getLsbD 15 then 0x1021#16 else 0x0000#16) ^^^ (c <<< 1) := by
  rw [crcBit]
  split
  · exact BitVec.xor_comm _ _
  · exact BitVec.zero_xor.symm

/-- The message bit adds the polynomial to what the step does without it. -/
theorem serialStep_eq_crcBit_xor (a : Crc) (bit : Bool) :
    serialStep a bit = crcBit a ^^^ (if bit then 0x1021#16 else 0x0000#16) := by
  rw [serialStep, crcBit, Config.crcPoly]
  generalize a.getLsbD 15 = top
  cases top <;> cases bit <;> simp

theorem crcBit_xor (a b : Crc) : crcBit (a ^^^ b) = crcBit a ^^^ crcBit b := by
  rw [crcBit_xor_pending, serialStep_eq_crcBit_xor, crcBit_eq_xor_ite b, BitVec.xor_assoc]

theorem crcShift_xor (n : Nat) (a b : Crc) : crcShift n (a ^^^ b) = crcShift n a ^^^ crcShift n b := by
  induction n generalizing a b with
  | zero => rfl
  | succ n ih => rw [crcShift, crcBit_xor, ih]; rfl

theorem crcShift_add (m n : Nat) (c : Crc) : crcShift (m + n) c = crcShift n (crcShift m c) := by
  induction m generalizing c with
  | zero => rw [Nat.zero_add]; rfl
  | succ m ih => rw [Nat.succ_add, crcShift, ih]; rfl

theorem crcShift_zero (n : Nat) : crcShift n 0x0000#16 = 0x0000#16 := by
  induction n with
  | zero => rfl
  | succ n ih => exact ih

/-- With nothing to push out at the top, shift steps only shift. -/
theorem crcShift_of_lt {n : Nat} {c : Crc} (h : c.toNat * 2 ^ n < 65536) : crcShift n c = c <<< n := by
  induction n generalizing c with
  | zero => rw [crcShift, BitVec.shiftLeft_zero]
  | succ n ih =>
    have hpos : 1 ≤ 2 ^ n := Nat.one_le_two_pow
    have hle : c.toNat * 2 ≤ c.toNat * 2 * 2 ^ n := Nat.le_mul_of_pos_right _ hpos
    have hsucc : c.toNat * 2 ^ (n + 1) = c.toNat * 2 * 2 ^ n := by rw [Nat.pow_succ', Nat.mul_assoc]
    have hone : (c <<< 1).toNat = c.toNat * 2 := by
      rw [shiftLeft_one_toNat, Nat.mod_eq_of_lt (by omega), Nat.mul_comm]
    rw [crcShift, crcBit_of_lt (by omega), ih (by rwa [hone, ← hsucc]), ← BitVec.shiftLeft_add, Nat.add_comm]

/-- A shift step loses nothing: bit 0 of the result tells whether the polynomial entered. -/
theorem crcBit_eq_zero {c : Crc} (h : crcBit c = 0x0000#16) : c = 0x0000#16 := by
  obtain ⟨-, hdouble⟩ := crcBitShiftStep c
  have hlt : c.toNat < 32768 := by
    by_contra hle
    have hbit0 := congrArg (fun x : Crc => x.getLsbD 0) (crcBit_of_le (Nat.not_lt.mp hle) ▸ h)
    simp at hbit0
  have htwice : (crcBit c).toNat = 2 * c.toNat := hdouble hlt
  rw [h] at htwice
  exact BitVec.eq_of_toNat_eq (by simpa using htwice.symm)

theorem crcShift_eq_zero {n : Nat} {c : Crc} (h : crcShift n c = 0x0000#16) : c = 0x0000#16 := by
  induction n generalizing c with
  | zero => exact h
  | succ n ih => exact crcBit_eq_zero (ih h)

theorem crcShift_injective (n : Nat) : Function.Injective (crcShift n) := by
  intro a b h
  have hzero : crcShift n (a ^^^ b) = 0x0000#16 := by rw [crcShift_xor, h, BitVec.xor_self]
  exact BitVec.xor_eq_zero_iff.mp (crcShift_eq_zero hzero)

/-! ### Bytes at the top and at the bottom of the accumulator -/

theorem assemble_xor (lo lo' hi hi' : Byte) : assemble (lo ^^^ lo') (hi ^^^ hi') = assemble lo hi ^^^ assemble lo' hi' :=
  BitVec.xor_append.symm

theorem assemble_eq_xor (lo hi : Byte) : assemble lo hi = assemble 0x00#8 hi ^^^ assemble lo 0x00#8 := by
  rw [← assemble_xor, BitVec.xor_zero, BitVec.zero_xor]

theorem assemble_injective {lo lo' hi hi' : Byte} (h : assemble lo hi = assemble lo' hi') : lo = lo' ∧ hi = hi' := by
  have hnum := congrArg BitVec.toNat h
  rw [assemble_toNat, assemble_toNat] at hnum
  exact ⟨BitVec.eq_of_toNat_eq (by omega), BitVec.eq_of_toNat_eq (by omega)⟩

theorem assemble_checksum (c : Crc) : assemble (checksumLo c) (checksumHi c) = c :=
  BitVec.extractLsb'_append_extractLsb'

/-- Shifting by a byte moves the low byte to the top. -/
theorem shiftLeft_eight_eq_assemble (c : Crc) : c <<< 8 = assemble 0x00#8 (checksumLo c) := by
  apply BitVec.eq_of_toNat_eq
  rw [assemble_toNat, checksumLo, BitVec.extractLsb'_toNat, BitVec.toNat_shiftLeft, Nat.shiftLeft_eq, Nat.shiftRight_zero,
    BitVec.toNat_ofNat]
  omega

theorem crcByte_eq_crcShift (c : Crc) (b : Byte) : crcByte c b = crcShift 8 (c ^^^ assemble 0x00#8 b) := by
  rw [crcByte, shiftLeft_eight_eq_assemble, checksumLo, BitVec.extractLsb'_setWidth_of_le (by decide),
    BitVec.extractLsb'_eq_self]

/-- Eight shift steps bring a low byte to the top. -/
theorem crcShift_assemble_low (b : Byte) : crcShift 8 (assemble b 0x00#8) = assemble 0x00#8 b := by
  have hlow : (assemble b 0x00#8).toNat = b.toNat := by simp [assemble_toNat]
  rw [crcShift_of_lt (by rw [hlow]; omega), shiftLeft_eight_eq_assemble]
  exact congrArg _ BitVec.extractLsb'_append_eq_right

theorem crcByte_xor (a b : Crc) (x y : Byte) : crcByte (a ^^^ b) (x ^^^ y) = crcByte a x ^^^ crcByte b y := by
  have hbytes : assemble 0x00#8 (x ^^^ y) = assemble 0x00#8 x ^^^ assemble 0x00#8 y := by
    rw [← assemble_xor, BitVec.xor_zero]
  simp only [crcByte_eq_crcShift, hbytes, crcShift_xor]
  ac_rfl

/-- Two bytes are absorbed at once as the 16-bit number they make, the first one high. -/
theorem crcByte_crcByte (c : Crc) (a b : Byte) : crcByte (crcByte c a) b = crcShift 16 (c ^^^ assemble b a) := by
  calc crcByte (crcByte c a) b
      = crcShift 8 (crcShift 8 (c ^^^ assemble 0x00#8 a) ^^^ crcShift 8 (assemble b 0x00#8)) := by
        rw [crcByte_eq_crcShift, crcByte_eq_crcShift, crcShift_assemble_low]
    _ = crcShift 8 (crcShift 8 (c ^^^ assemble b a)) := by rw [← crcShift_xor, BitVec.xor_assoc, ← assemble_eq_xor]
    _ = crcShift 16 (c ^^^ assemble b a) := (crcShift_add 8 8 _).symm

/-! ### The table form (40_crc.md rule R78) -/

theorem crcTable_length : crcTable.length = 256 := by decide +kernel

/-- An entry of the printed table is the CRC of its index: a fact about 256 printed numbers. -/
theorem crcTable_getD : ∀ i : Byte, crcTable.getD i.toNat 0x0000#16 = crcByte 0x0000#16 i := by decide +kernel

/-- Settles O9: the high byte of the accumulator meets the message byte, and the low byte is only moved up. -/
theorem crcTableFormEqualsBitForm : Obligations.CrcTableFormEqualsBitForm := by
  refine ⟨crcTable_length, fun c b => ?_⟩
  have hc : c = assemble 0x00#8 (checksumHi c) ^^^ assemble (checksumLo c) 0x00#8 := by
    rw [← assemble_eq_xor, assemble_checksum]
  calc crcByteByTable c b
      = assemble 0x00#8 (checksumLo c) ^^^ crcByte 0x0000#16 (checksumHi c ^^^ b) := by
        rw [crcByteByTable, crcTable_getD, shiftLeft_eight_eq_assemble]
        rfl
    _ = crcShift 8 (assemble (checksumLo c) 0x00#8) ^^^
          crcShift 8 (assemble 0x00#8 (checksumHi c) ^^^ assemble 0x00#8 b) := by
        rw [crcShift_assemble_low, crcByte_eq_crcShift, BitVec.zero_xor, ← assemble_xor, BitVec.xor_zero]
    _ = crcByte c b := by
        rw [crcByte_eq_crcShift, ← crcShift_xor, BitVec.xor_comm, BitVec.xor_assoc, BitVec.xor_comm (assemble _ b),
          ← BitVec.xor_assoc, ← hc]

/-! ### The message CRC (40_crc.md rules R75, R80, R81) -/

@[simp] theorem crc16_nil : crc16 [] = 0x0000#16 := rfl

theorem crc16_append (s t : List Byte) : crc16 (s ++ t) = crcFrom (crc16 s) t := crcFrom_append _ s t

theorem crc16_concat (s : List Byte) (b : Byte) : crc16 (s ++ [b]) = crcByte (crc16 s) b := crc16_append s [b]

/-- Settles O8: the empty message leaves the initial value, and a last byte is absorbed last. -/
theorem crcOfMessageAbsorbsInOrder : Obligations.CrcOfMessageAbsorbsInOrder := ⟨crc16_nil, crc16_concat⟩

theorem crcByte_zero : crcByte 0x0000#16 0x00#8 = 0x0000#16 := crcShift_zero 8

theorem crc16_replicate_zero (n : Nat) : crc16 (List.replicate n 0x00#8) = 0x0000#16 := by
  induction n with
  | zero => rfl
  | succ n ih => rw [List.replicate_succ', crc16_concat, ih, crcByte_zero]

/-- Settles O10: a message goes on from the accumulator of its first part, which zero bytes leave at its initial value. -/
theorem crcIncrementalAndLeadingZeros : Obligations.CrcIncrementalAndLeadingZeros := by
  refine ⟨crc16_append, fun n s => ?_⟩
  rw [crc16_append, crc16_replicate_zero]
  rfl

theorem crcFrom_xor (a b : Crc) {s t : List Byte} (h : s.length = t.length) :
    crcFrom (a ^^^ b) (List.zipWith (· ^^^ ·) s t) = crcFrom a s ^^^ crcFrom b t := by
  induction s generalizing a b t with
  | nil => cases t with
    | nil => rfl
    | cons y t => cases h
  | cons x s ih => cases t with
    | nil => cases h
    | cons y t =>
      change crcFrom (crcByte (a ^^^ b) (x ^^^ y)) _ = crcFrom (crcByte a x) s ^^^ crcFrom (crcByte b y) t
      rw [crcByte_xor]
      exact ih _ _ (Nat.succ.inj h)

/-- Settles O11: both messages start from the initial value, which is its own XOR. -/
theorem crcXorLinear : Obligations.CrcXorLinear := fun _ _ h => crcFrom_xor 0x0000#16 0x0000#16 h

theorem crc16_pair (a b : Byte) : crc16 [a, b] = crcShift 16 (assemble b a) := by
  rw [← BitVec.zero_xor (x := assemble b a), ← crcByte_crcByte]
  rfl

theorem crc16_pair_injective {a b a' b' : Byte} (h : crc16 [a, b] = crc16 [a', b']) : a = a' ∧ b = b' := by
  rw [crc16_pair, crc16_pair] at h
  exact (assemble_injective (crcShift_injective 16 h)).symm

/-- Settles O12: the two bytes are a 16-bit number under a map that is injective, and so onto, of a finite type. -/
theorem crcBijectiveOnTwoBytes : Obligations.CrcBijectiveOnTwoBytes := by
  refine ⟨fun a b a' b' h => crc16_pair_injective h, fun c => ?_⟩
  obtain ⟨x, hx⟩ := Finite.surjective_of_injective (crcShift_injective 16) c
  exact ⟨checksumHi x, checksumLo x, by rw [crc16_pair, assemble_checksum, hx]⟩

/-- Settles O13: the checksum, high byte first, is absorbed as the number that the accumulator is. -/
theorem crcResidueHighByteFirst : Obligations.CrcResidueHighByteFirst := by
  refine ⟨fun s => ?_, by decide +kernel⟩
  calc crc16 (s ++ [checksumHi (crc16 s), checksumLo (crc16 s)])
      = crcShift 16 (crc16 s ^^^ assemble (checksumLo (crc16 s)) (checksumHi (crc16 s))) := by
        rw [crc16_append, ← crcByte_crcByte]
        rfl
    _ = 0x0000#16 := by rw [assemble_checksum, BitVec.xor_self, crcShift_zero]

end Sys2Proof.Machine
end

section
/-! PROOFS. The machine behind the host's interface is the block's own step: an instruction, one step, and a run, 10_state.md
rule R10 and 20_memory.md section 5; and the ports, 10_state.md rule R21. -/

namespace Sys2Proof.Machine

/-! ### An instruction and a step as whole next states -/

/-- Every arm of the dispatch is the block's execution under the MAX_PAYLOAD supplied. -/
theorem exec_eq_next_execute (i : Instr) (s : State) :
    exec i s = .next { s with block := s.block.execute Config.maxPayload i } := by
  cases i <;> rfl

/-- Settles O59: each arm of the dispatch is that of the block. -/
theorem execIsTheBlockUnderMaxPayload : Obligations.ExecIsTheBlockUnderMaxPayload := exec_eq_next_execute

theorem step_of_inbox_nil {s : State} (h : s.inbox = []) : step s = .next s := by
  simp [step, State.fetch, h]

/-- A step takes the first input, and the block makes its own step with it. -/
theorem step_of_inbox_cons {s : State} {x : HostInput} {rest : List HostInput} (h : s.inbox = x :: rest) :
    step s = .next { s with inbox := rest, block := s.block.step Config.maxPayload x } := by
  cases x with
  | reset => simp [step, State.fetch, h, State.applyReset, State.onBlock]
  | present f =>
    cases hf : decode f with
    | ok i => simp [step, State.fetch, h, hf, exec_eq_next_execute, Block.step_present_ok hf]
    | error e => simp [step, State.fetch, h, hf, State.onBlock, Block.step_present_error hf]

theorem Block.illegalCommand_of_not_faulted {b : Block} (h : b.faulted = false) :
    b.illegalCommand = { b with fIll := true } := by
  simp [Block.illegalCommand, h]

/-- Settles O26: the block's step with RESET is the reset block. -/
theorem resetEventRestoresBlock : Obligations.ResetEventRestoresBlock := fun _ _ h => step_of_inbox_cons h

/-- Settles O27: the block's step with a form is the execution of what it decodes to, or IllegalCommand. -/
theorem stepRunsDecodedInstruction : Obligations.StepRunsDecodedInstruction := by
  refine ⟨fun s f rest i h hf => ?_, fun s f rest e h hf hseq hill => ?_, fun s h => step_of_inbox_nil h⟩
  · rw [step_of_inbox_cons h, Block.step_present_ok hf, exec_eq_next_execute]
  · rw [step_of_inbox_cons h, Block.step_present_error hf,
      Block.illegalCommand_of_not_faulted (s.block.faulted_eq_false_iff.mpr ⟨hseq, hill⟩)]

/-- Settles O28: a step waits or takes an input, and an instruction is an execution of the block. -/
theorem noStepStops : Obligations.NoStepStops := by
  refine ⟨fun s => ?_, fun i s => ⟨_, exec_eq_next_execute i s⟩⟩
  cases h : s.inbox with
  | nil => exact ⟨s, step_of_inbox_nil h⟩
  | cons x rest => exact ⟨_, step_of_inbox_cons h⟩

/-- Settles O29: with nothing presented the state stays, and otherwise it is that of `step_of_inbox_cons`. -/
theorem inputsTakenInOrder : Obligations.InputsTakenInOrder := by
  intro s t hstep
  cases h : s.inbox with
  | nil =>
    obtain rfl : s = t := by simpa [step_of_inbox_nil h] using hstep
    exact ⟨h, rfl⟩
  | cons x rest =>
    rw [step_of_inbox_cons h] at hstep
    cases hstep
    exact ⟨rfl, rfl⟩

/-! ### Runs -/

theorem core_run_succ_of_step {s t : State} (h : step s = .next t) (k : Nat) :
    Host.Core.run Sys2Proof.core (k + 1) s = Host.Core.run Sys2Proof.core k t := by
  have hcore : Host.Core.step Sys2Proof.core s = .next t := h
  simp only [Host.Core.run, hcore]

/-- Each step takes the first of the inputs left, so that the block's steps follow each other. -/
theorem core_run_inbox_append (xs rest : List HostInput) (b : Block) :
    Host.Core.run Sys2Proof.core xs.length ({ block := b, inbox := xs ++ rest } : State) =
      .next ({ block := b.run Config.maxPayload xs, inbox := rest } : State) := by
  induction xs generalizing b with
  | nil => rfl
  | cons x xs ih => exact (core_run_succ_of_step (step_of_inbox_cons rfl) _).trans (ih _)

/-- Settles O56: a run takes its inputs from the front of the inbox. -/
theorem machineRunIsBlockRun : Obligations.MachineRunIsBlockRun :=
  fun xs rest s => core_run_inbox_append xs rest s.block

/-! ### Sticky faults (60_exceptions.md rule R132) -/

theorem Block.step_present_of_faulted {b : Block} (h : b.faulted = true) (m : Option Nat) (f : Form) :
    b.step m (.present f) = b := by
  cases hf : decode f with
  | ok i => rw [Block.step_present_ok hf, Block.execute_of_faulted h]
  | error e => rw [Block.step_present_error hf, Block.illegalCommand_of_faulted h]

/-- Settles O22: a faulted block ignores every instruction and every form, and RESET clears its flags. -/
theorem stickyFaultIgnoresEverythingButReset : Obligations.StickyFaultIgnoresEverythingButReset := by
  intro s hs
  have hf : s.block.faulted = true := s.block.faulted_eq_true_iff.mpr hs
  exact ⟨fun i => ⟨_, exec_eq_next_execute i s, Block.execute_of_faulted hf _ i⟩,
    fun f rest h => ⟨_, step_of_inbox_cons h, Block.step_present_of_faulted hf _ f, rfl⟩,
    fun rest h => ⟨_, step_of_inbox_cons h, rfl, rfl⟩⟩

/-- Settles O20: both reserved opcodes are IllegalCommand. -/
theorem reservedOpcodesAreIllegal : Obligations.ReservedOpcodesAreIllegal := by
  intro d s
  have hop6 : exec (.reservedOp6 d) s = .next { s with block := s.block.illegalCommand } := rfl
  have hop7 : exec (.reservedOp7 d) s = .next { s with block := s.block.illegalCommand } := rfl
  rw [hop6, hop7]
  refine ⟨fun hseq hill => ?_, fun hs => ?_⟩
  · rw [Block.illegalCommand_of_not_faulted (s.block.faulted_eq_false_iff.mpr ⟨hseq, hill⟩)]
    exact ⟨rfl, rfl⟩
  · rw [Block.illegalCommand_of_faulted (s.block.faulted_eq_true_iff.mpr hs)]
    exact ⟨rfl, rfl⟩

/-! ### ENC_DATA (41_encode.md rule R96) -/

theorem Block.payloadHasRoom_eq_true_iff (m : Option Nat) (b : Block) :
    b.payloadHasRoom m = true ↔ ∀ n, m = some n → b.txbuf.length < n + 1 := by
  cases m <;> simp [Block.payloadHasRoom]

/-- The effect of ENC_DATA where it is legal. -/
theorem Block.cmdEncData_of_room {m : Option Nat} {b : Block} (hf : b.faulted = false) (hp : b.phase = .enc)
    (hroom : ∀ n, m = some n → b.txbuf.length < n + 1) (d : Byte) :
    b.cmdEncData m d = { b with txbuf := b.txbuf ++ [d], crc := crcByte b.crc d } := by
  have hlegal : (b.phase == .enc && b.payloadHasRoom m) = true := by
    rw [(b.payloadHasRoom_eq_true_iff m).mpr hroom, hp]
    rfl
  rw [Block.cmdEncData, hlegal, Block.command_of_legal hf, Block.append]

theorem Block.cmdEncData_of_not_enc {b : Block} (hf : b.faulted = false) (hp : b.phase ≠ .enc) (m : Option Nat)
    (d : Byte) : b.cmdEncData m d = b.seqFault := by
  rw [Block.cmdEncData, beq_eq_false_iff_ne.mpr hp, Bool.false_and, Block.command_of_not_legal hf]

/-- Past MAX_PAYLOAD, ENC_DATA is a sequence fault. -/
theorem Block.cmdEncData_of_full {b : Block} {n : Nat} (hf : b.faulted = false) (hfull : n + 1 ≤ b.txbuf.length)
    (d : Byte) : b.cmdEncData (some n) d = b.seqFault := by
  have hroom : b.payloadHasRoom (some n) = false := decide_eq_false (Nat.not_lt.mpr hfull)
  rw [Block.cmdEncData, hroom, Bool.and_false, Block.command_of_not_legal hf]

/-- The word `0x300 | d` of ENC_DATA. -/
theorem decodeWord_encData (d : Byte) : decodeWord (0x300#11 ||| d.setWidth 11) = .ok (.encData d) :=
  decodeWord_of_rowMatches ⟨or_setWidth_and_opcodeMask _ d, operandOf_or_setWidth rfl d⟩

/-- Settles O17: ENC_DATA is a command legal in ENC while the payload has room. -/
theorem encDataCommand : Obligations.EncDataCommand := by
  intro d
  refine ⟨fun m b => ⟨fun hs => ?_, fun hseq hill hp => ?_, fun n hseq hill hp hm hfull => ?_,
    fun hseq hill hp hroom => ?_⟩, exec_eq_next_execute _, fun s hseq hill hp hroom => ?_, decodeWord_encData d⟩
  · exact Block.execute_of_faulted (b.faulted_eq_true_iff.mpr hs) m _
  · exact Block.cmdEncData_of_not_enc (b.faulted_eq_false_iff.mpr ⟨hseq, hill⟩) hp m d
  · subst hm
    exact Block.cmdEncData_of_full (b.faulted_eq_false_iff.mpr ⟨hseq, hill⟩) hfull d
  · exact Block.cmdEncData_of_room (b.faulted_eq_false_iff.mpr ⟨hseq, hill⟩) hp hroom d
  · rw [exec_eq_next_execute]
    exact congrArg (fun b => Host.Outcome.next { s with block := b })
      (Block.cmdEncData_of_room (s.block.faulted_eq_false_iff.mpr ⟨hseq, hill⟩) hp hroom d)

/-! ### The ports (10_state.md rule R21) -/

theorem Block.resPort_toNat (b : Block) : b.resPort.toNat = b.resCmd.toNat + 256 * b.resStatus.toNat :=
  assemble_toNat b.resCmd b.resStatus

/-- Settles O35: no port reads a latch or `idx`, and RES is assembled like a received checksum. -/
theorem portsHideLatches : Obligations.PortsHideLatches :=
  fun b _ _ _ _ => ⟨rfl, rfl, rfl, b.resPort_toNat⟩

end Sys2Proof.Machine
end

section
/-! PROOFS. An instruction and its command words, 00_scope.md rule R5 and 30_encoding.md rule R65; and the step from a fact
about single commands to one about every instruction. -/

namespace Sys2Proof.Machine

/-! ### Narrowing a list that fits (41_encode.md rules R91, R92) -/

theorem toByte_of_fitsByte {v : Int} (h : fitsByte v = true) : toByte v = .ok (narrow v) := if_pos h

theorem toBytes_of_all_fitsByte {p : List Int} (h : p.all fitsByte = true) : toBytes p = .ok (p.map narrow) := by
  induction p with
  | nil => rfl
  | cons v p ih =>
    obtain ⟨hv, hp⟩ := Bool.and_eq_true_iff.mp h
    exact toBytes_cons_ok (toByte_of_fitsByte hv) (ih hp)

theorem fitsByte_byteValue (b : Byte) : fitsByte (byteValue b) = true :=
  fitsByte_eq_true_iff.mpr ⟨by simp [byteValue], by simp only [byteValue]; omega⟩

theorem narrow_byteValue (b : Byte) : narrow (byteValue b) = b := narrow_of_toNat b

theorem Block.encodeCall_of_ok {r : Int} {p : List Int} {r' : Byte} {p' : List Byte} (hr : toByte r = .ok r')
    (hp : toBytes p = .ok p') (m : Option Nat) (b : Block) :
    b.encodeCall m r p = (b.runEncode m r' p', (b.runEncode m r' p').encodeReply) := by
  simp [Block.encodeCall, hr, hp]

theorem Block.encodeCall_fst_of_fits {r : Int} {p : List Int} (hr : fitsByte r = true) (hp : p.all fitsByte = true)
    (m : Option Nat) (b : Block) : (b.encodeCall m r p).1 = b.runEncode m (narrow r) (p.map narrow) := by
  rw [Block.encodeCall_of_ok (toByte_of_fitsByte hr) (toBytes_of_all_fitsByte hp)]

/-! ### The words presented one at a time -/

/-- Command words as inputs of the block. -/
def presentWords (ws : List CommandWord) : List HostInput := ws.map fun w => .present (.cw w)

theorem Block.run_append (m : Option Nat) (xs ys : List HostInput) (b : Block) :
    b.run m (xs ++ ys) = (b.run m xs).run m ys := List.foldl_append

/-- A word that spells a command runs it. -/
theorem Block.run_presentWords_cons {w : CommandWord} {c : Instr} (h : decodeWord w = .ok c) (ws : List CommandWord)
    (m : Option Nat) (b : Block) : b.run m (presentWords (w :: ws)) = (b.execute m c).run m (presentWords ws) := by
  rw [presentWords, List.map_cons, Block.run_cons, Block.step_present_ok (f := .cw w) h]
  rfl

theorem Block.run_presentWords_singleton {w : CommandWord} {c : Instr} (h : decodeWord w = .ok c) (m : Option Nat)
    (b : Block) : b.run m (presentWords [w]) = b.execute m c := Block.run_presentWords_cons h [] m b

/-- The words of one opcode run its command operand by operand. -/
theorem Block.run_presentWords_map {op : BitVec 3} {c : Byte → Instr}
    (h : ∀ d, decodeWord (commandWord op d) = .ok (c d)) (ds : List Byte) (m : Option Nat) (b : Block) :
    b.run m (presentWords (ds.map (commandWord op))) = ds.foldl (fun b d => b.execute m (c d)) b := by
  induction ds generalizing b with
  | nil => rfl
  | cons d ds ih => rw [List.map_cons, Block.run_presentWords_cons (h d), ih, List.foldl_cons]

theorem Block.run_encodeWords (r : Byte) (p : List Byte) (m : Option Nat) (b : Block) :
    b.run m (presentWords (encodeWords r p)) = b.runEncode m r p := by
  rw [encodeWords, Block.run_presentWords_cons (decodeWord_commandWord_encStart r), presentWords, List.map_append,
    Block.run_append]
  exact (congrArg _ (Block.run_presentWords_map decodeWord_commandWord_encData p m _)).trans
    (Block.run_presentWords_singleton decodeWord_commandWord_encEnd m _)

/-- 30_encoding.md rule R65: a well-formed instruction is the run of its command words. -/
theorem Block.run_commandWords {i : Instr} (hwf : i.wellFormed = true) (m : Option Nat) (b : Block) :
    b.run m (presentWords (commandWords i)) = b.execute m i := by
  have hframe (id : Byte) {p : List Int} (hp : p.all fitsByte = true) :
      b.run m (presentWords (encodeWords id (p.map narrow))) = (b.encodeCall m (byteValue id) p).1 := by
    rw [Block.run_encodeWords, Block.encodeCall_fst_of_fits (fitsByte_byteValue id) hp, narrow_byteValue]
  cases i with
  | crcClr => exact Block.run_presentWords_singleton decodeWord_commandWord_crcClr m b
  | crcByte d => exact Block.run_presentWords_singleton (decodeWord_commandWord_crcByte d) m b
  | encStart d => exact Block.run_presentWords_singleton (decodeWord_commandWord_encStart d) m b
  | encData d => exact Block.run_presentWords_singleton (decodeWord_commandWord_encData d) m b
  | encEnd => exact Block.run_presentWords_singleton decodeWord_commandWord_encEnd m b
  | decByte d => exact Block.run_presentWords_singleton (decodeWord_commandWord_decByte d) m b
  | reservedOp6 d => exact Block.run_presentWords_singleton (decodeWord_commandWord_reservedOp6 d) m b
  | reservedOp7 d => exact Block.run_presentWords_singleton (decodeWord_commandWord_reservedOp7 d) m b
  | brightness p | rotate p | power p | maxIdx p | idxStep p | driveMode p => exact hframe _ hwf
  | status st lo hi => exact Block.run_presentWords_map decodeWord_commandWord_decByte [Config.statusId, st, lo, hi] m b
  | decode b0 b1 b2 b3 => exact Block.run_presentWords_map decodeWord_commandWord_decByte [b0, b1, b2, b3] m b
  | crc16 bs =>
    rw [commandWords, Block.run_presentWords_cons decodeWord_commandWord_crcClr]
    exact Block.run_presentWords_map decodeWord_commandWord_crcByte bs m _
  | encode r p =>
    obtain ⟨hr, hp⟩ := Bool.and_eq_true_iff.mp hwf
    rw [commandWords, Block.run_encodeWords]
    exact (Block.encodeCall_fst_of_fits hr hp m b).symm

/-- Settles O48: the block runs the words, and the machine runs the block. -/
theorem instructionsEqualTheirCommandWords : Obligations.InstructionsEqualTheirCommandWords := by
  intro i hwf
  refine ⟨Block.run_commandWords hwf, fun s rest => ?_⟩
  have hrun := core_run_inbox_append (presentWords (commandWords i)) rest s.block
  rw [Block.run_commandWords hwf, presentWords, List.length_map] at hrun
  rw [exec_eq_next_execute]
  exact hrun

/-! ### Facts about every instruction from facts about commands -/

/-- The four groups of commands. -/
inductive CommandGroup where
  | crc
  | enc
  | dec
  | reserved

/-- The group of the commands that an instruction issues (30_encoding.md rule R65). -/
def groupOf : Instr → CommandGroup
  | .crcClr | .crcByte _ | .crc16 _ => .crc
  | .encStart _ | .encData _ | .encEnd | .encode _ _ => .enc
  | .brightness _ | .rotate _ | .power _ | .maxIdx _ | .idxStep _ | .driveMode _ => .enc
  | .decByte _ | .status _ _ _ | .decode _ _ _ _ => .dec
  | .reservedOp6 _ | .reservedOp7 _ => .reserved

/-- The instruction is a command: a row of format CW. -/
def isCommand : Instr → Bool
  | .reservedOp6 _ | .reservedOp7 _ => true
  | i => isTableCommand i

/-- The word spells a command of the group. -/
def SpellsCommandOf (g : CommandGroup) (w : CommandWord) : Prop :=
  ∃ c, decodeWord w = .ok c ∧ isCommand c = true ∧ groupOf c = g

theorem spellsCommandOf_of_mem_encodeWords {r : Byte} {p : List Byte} {w : CommandWord} (hw : w ∈ encodeWords r p) :
    SpellsCommandOf .enc w := by
  simp only [encodeWords, List.mem_cons, List.mem_append, List.mem_map, List.not_mem_nil, or_false] at hw
  obtain rfl | ⟨d, -, rfl⟩ | rfl := hw
  · exact ⟨_, decodeWord_commandWord_encStart r, rfl, rfl⟩
  · exact ⟨_, decodeWord_commandWord_encData d, rfl, rfl⟩
  · exact ⟨_, decodeWord_commandWord_encEnd, rfl, rfl⟩

theorem spellsCommandOf_of_mem_decodeWords {ds : List Byte} {w : CommandWord}
    (hw : w ∈ ds.map (commandWord 0b101#3)) : SpellsCommandOf .dec w := by
  obtain ⟨d, -, rfl⟩ := List.mem_map.mp hw
  exact ⟨_, decodeWord_commandWord_decByte d, rfl, rfl⟩

/-- The words of an instruction spell commands of its group. -/
theorem spellsCommandOf_of_mem_commandWords {i : Instr} {w : CommandWord} (hw : w ∈ commandWords i) :
    SpellsCommandOf (groupOf i) w := by
  have hone {v : CommandWord} {g : CommandGroup} (hv : SpellsCommandOf g v) (hwv : w ∈ [v]) : SpellsCommandOf g w := by
    rwa [List.mem_singleton.mp hwv]
  cases i with
  | crcClr => exact hone ⟨_, decodeWord_commandWord_crcClr, rfl, rfl⟩ hw
  | crcByte d => exact hone ⟨_, decodeWord_commandWord_crcByte d, rfl, rfl⟩ hw
  | encStart d => exact hone ⟨_, decodeWord_commandWord_encStart d, rfl, rfl⟩ hw
  | encData d => exact hone ⟨_, decodeWord_commandWord_encData d, rfl, rfl⟩ hw
  | encEnd => exact hone ⟨_, decodeWord_commandWord_encEnd, rfl, rfl⟩ hw
  | decByte d => exact hone ⟨_, decodeWord_commandWord_decByte d, rfl, rfl⟩ hw
  | reservedOp6 d => exact hone ⟨_, decodeWord_commandWord_reservedOp6 d, rfl, rfl⟩ hw
  | reservedOp7 d => exact hone ⟨_, decodeWord_commandWord_reservedOp7 d, rfl, rfl⟩ hw
  | brightness p | rotate p | power p | maxIdx p | idxStep p | driveMode p | encode r p =>
    exact spellsCommandOf_of_mem_encodeWords hw
  | status st lo hi | decode b0 b1 b2 b3 => exact spellsCommandOf_of_mem_decodeWords (ds := [_, _, _, _]) hw
  | crc16 bs =>
    obtain rfl | hw := List.mem_cons.mp hw
    · exact ⟨_, decodeWord_commandWord_crcClr, rfl, rfl⟩
    · obtain ⟨d, -, rfl⟩ := List.mem_map.mp hw
      exact ⟨_, decodeWord_commandWord_crcByte d, rfl, rfl⟩

theorem fitsByte_eq_false_iff {v : Int} : fitsByte v = false ↔ v < 0 ∨ 255 < v := by
  rw [Bool.eq_false_iff, ne_eq, fitsByte_eq_true_iff]
  omega

theorem toBytes_of_not_all_fitsByte {p : List Int} (h : p.all fitsByte = false) :
    toBytes p = .error .validationError := by
  obtain ⟨v, hmem, hv⟩ := List.all_eq_false.mp h
  exact toBytes_error_of_mem hmem (fitsByte_eq_false_iff.mp (Bool.eq_false_iff.mpr hv))

/-- 41_encode.md rule R98: on a ValidationError no command is issued. -/
theorem Block.encodeCall_of_error {r : Int} {p : List Int} (h : toBytes (r :: p) = .error .validationError)
    (m : Option Nat) (b : Block) : b.encodeCall m r p = (b, some (.error .validationError)) := by
  obtain ⟨r', p', hr, hp, -⟩ | heq := Block.encodeCall_cases m r p b
  · cases (toBytes_cons_ok hr hp).symm.trans h
  · exact heq

/-- An instruction whose operands do not all fit a byte leaves the block as it is. -/
theorem Block.execute_of_not_wellFormed {i : Instr} (h : i.wellFormed = false) (m : Option Nat) (b : Block) :
    b.execute m i = b := by
  have hcall {r : Int} {p : List Int} (hrp : (r :: p).all fitsByte = false) : (b.encodeCall m r p).1 = b := by
    rw [Block.encodeCall_of_error (toBytes_of_not_all_fitsByte hrp)]
  have hframe (id : Byte) {p : List Int} (hp : p.all fitsByte = false) :
      (b.encodeCall m (byteValue id) p).1 = b :=
    hcall (by rw [List.all_cons, hp, Bool.and_false])
  cases i with
  | brightness p | rotate p | power p | maxIdx p | idxStep p | driveMode p => exact hframe _ h
  | encode r p => exact hcall h
  | _ => cases h

/-- What every command of an instruction's group keeps, the instruction keeps. -/
theorem Block.execute_induction {P : Block → Prop} {m : Option Nat} {i : Instr}
    (hcmd : ∀ c, isCommand c = true → groupOf c = groupOf i → ∀ b, P b → P (b.execute m c)) {b : Block} (hb : P b) :
    P (b.execute m i) := by
  have hwords (ws : List CommandWord) (hws : ∀ w ∈ ws, SpellsCommandOf (groupOf i) w) :
      ∀ b, P b → P (b.run m (presentWords ws)) := by
    induction ws with
    | nil => exact fun b hb => hb
    | cons w ws ih =>
      intro b hb
      obtain ⟨c, hdec, hc, hg⟩ := hws w List.mem_cons_self
      rw [Block.run_presentWords_cons hdec]
      exact ih (fun v hv => hws v (List.mem_cons_of_mem w hv)) _ (hcmd c hc hg b hb)
  cases hwf : i.wellFormed with
  | false => rwa [Block.execute_of_not_wellFormed hwf]
  | true =>
    rw [← Block.run_commandWords hwf]
    exact hwords _ (fun w hw => spellsCommandOf_of_mem_commandWords hw) b hb

/-- A view of the block that no command of an instruction's group changes, the instruction does not change. -/
theorem Block.execute_keeps {α : Type} {view : Block → α} {m : Option Nat} {i : Instr}
    (hcmd : ∀ c, isCommand c = true → groupOf c = groupOf i → ∀ b, view (b.execute m c) = view b) (b : Block) :
    view (b.execute m i) = view b :=
  Block.execute_induction (P := fun c => view c = view b) (fun c hc hg b' hb' => (hcmd c hc hg b').trans hb') rfl

end Sys2Proof.Machine
end

section
/-! PROOFS. What an instruction leaves unchanged, 10_state.md section 1, and the order in which a word is judged,
60_exceptions.md section 3. -/

namespace Sys2Proof.Machine

/-! ### What a command leaves unchanged (10_state.md section 1) -/

section
variable {α : Type} (view : Block → α)

theorem Block.command_keeps (hseq : ∀ b, view b.seqFault = view b) {effect : Block → Block}
    (heff : ∀ b, view (effect b) = view b) (legal : Bool) (b : Block) : view (b.command legal effect) = view b := by
  obtain ⟨-, heq⟩ | ⟨-, -, heq⟩ | ⟨-, -, heq⟩ := Block.command_cases legal effect b
  · rw [heq]
  · rw [heq, hseq]
  · rw [heq, heff]

theorem Block.illegalCommand_keeps (hill : ∀ b : Block, view { b with fIll := true } = view b) (b : Block) :
    view b.illegalCommand = view b := by
  obtain ⟨-, heq⟩ | ⟨-, heq⟩ := Block.illegalCommand_cases b
  · rw [heq]
  · rw [heq, hill]

theorem Block.takeByte_keeps {d : Byte}
    (h0 : ∀ b : Block, view (b.takeCmdId d) = view b) (h1 : ∀ b : Block, view (b.takeStatus d) = view b)
    (h2 : ∀ b : Block, view (b.takeChecksumLo d) = view b) (h3 : ∀ b : Block, view (b.takeChecksumHi d) = view b)
    (b : Block) : view (b.takeByte d) = view b := by
  have hidx : b.idx = 0 ∨ b.idx = 1 ∨ b.idx = 2 ∨ b.idx = 3 := by omega
  obtain hidx | hidx | hidx | hidx := hidx
  · rw [Block.takeByte_of_idx_zero d hidx, h0]
  · rw [Block.takeByte_of_idx_one d hidx, h1]
  · rw [Block.takeByte_of_idx_two d hidx, h2]
  · rw [Block.takeByte_of_idx_three d hidx, h3]

end

section
variable (m : Option Nat) (b : Block)

theorem Block.execute_crcClr :
    b.execute m .crcClr = b.command (b.phase == .idle) fun b => { b with crc := 0x0000#16 } := rfl

theorem Block.execute_crcByte (d : Byte) :
    b.execute m (.crcByte d) = b.command (b.phase == .idle) fun b => { b with crc := crcByte b.crc d } := rfl

theorem Block.execute_encStart (d : Byte) :
    b.execute m (.encStart d) = b.command (b.phase == .idle) fun b =>
      { b with txbuf := [d], txv := false, crc := crcByte 0x0000#16 d, phase := .enc } := rfl

theorem Block.execute_encData (d : Byte) :
    b.execute m (.encData d) = b.command (b.phase == .enc && b.payloadHasRoom m) fun b =>
      { b with txbuf := b.txbuf ++ [d], crc := crcByte b.crc d } := rfl

theorem Block.execute_encEnd :
    b.execute m .encEnd = b.command (b.phase == .enc) fun b =>
      { b.appendChecksum with txv := true, phase := .idle } := rfl

theorem Block.execute_decByte (d : Byte) :
    b.execute m (.decByte d) = b.command (b.phase != .enc) (Block.takeByte d) := rfl

end

/-- The fields that the decode commands alone write. -/
def Block.decodeSide (b : Block) : Fin 4 × Byte × Byte × Byte × Byte × Byte × Bool × Bool :=
  (b.idx, b.rCmd, b.rStatus, b.rLo, b.resCmd, b.resStatus, b.dv, b.fChk)

/-- The fields that the encode commands alone write. -/
def Block.encodeSide (b : Block) : List Byte × Bool := (b.txbuf, b.txv)

/-- The two sticky flags. -/
def Block.stickyFlags (b : Block) : Bool × Bool := (b.fSeq, b.fIll)

theorem Block.execute_decodeSide (m : Option Nat) {i : Instr} (hi : groupOf i ≠ .dec) (b : Block) :
    (b.execute m i).decodeSide = b.decodeSide := by
  refine Block.execute_keeps (fun c hc hg b => ?_) b
  cases c with
  | crcClr | crcByte d | encStart d | encData d | encEnd =>
    exact Block.command_keeps Block.decodeSide (fun _ => rfl) (fun _ => by rfl) _ b
  | reservedOp6 d | reservedOp7 d => exact Block.illegalCommand_keeps Block.decodeSide (fun _ => rfl) b
  | decByte d => exact absurd hg.symm hi
  | _ => cases hc

theorem Block.takeByte_encodeSide (d : Byte) (b : Block) : (b.takeByte d).encodeSide = b.encodeSide := by
  refine Block.takeByte_keeps Block.encodeSide (fun _ => rfl) (fun _ => rfl) (fun _ => rfl) (fun b => ?_) b
  obtain ⟨-, heq⟩ | ⟨-, heq⟩ := Block.takeChecksumHi_cases d b <;> rw [heq] <;> rfl

theorem Block.takeByte_stickyFlags (d : Byte) (b : Block) : (b.takeByte d).stickyFlags = b.stickyFlags := by
  refine Block.takeByte_keeps Block.stickyFlags (fun _ => rfl) (fun _ => rfl) (fun _ => rfl) (fun b => ?_) b
  obtain ⟨-, heq⟩ | ⟨-, heq⟩ := Block.takeChecksumHi_cases d b <;> rw [heq] <;> rfl

theorem Block.execute_encodeSide (m : Option Nat) {i : Instr} (hi : groupOf i ≠ .enc) (b : Block) :
    (b.execute m i).encodeSide = b.encodeSide := by
  refine Block.execute_keeps (fun c hc hg b => ?_) b
  cases c with
  | crcClr | crcByte d => exact Block.command_keeps Block.encodeSide (fun _ => rfl) (fun _ => by rfl) _ b
  | decByte d => exact Block.command_keeps Block.encodeSide (fun _ => rfl) (Block.takeByte_encodeSide d) _ b
  | reservedOp6 d | reservedOp7 d => exact Block.illegalCommand_keeps Block.encodeSide (fun _ => rfl) b
  | encStart d | encData d | encEnd => exact absurd hg.symm hi
  | _ => cases hc

theorem Block.execute_phase (m : Option Nat) {i : Instr} (henc : groupOf i ≠ .enc) (hdec : groupOf i ≠ .dec)
    (b : Block) : (b.execute m i).phase = b.phase := by
  refine Block.execute_keeps (fun c hc hg b => ?_) b
  cases c with
  | crcClr | crcByte d => exact Block.command_keeps Block.phase (fun _ => rfl) (fun _ => by rfl) _ b
  | reservedOp6 d | reservedOp7 d => exact Block.illegalCommand_keeps Block.phase (fun _ => rfl) b
  | encStart d | encData d | encEnd => exact absurd hg.symm henc
  | decByte d => exact absurd hg.symm hdec
  | _ => cases hc

theorem Block.execute_fIll (m : Option Nat) {i : Instr} (hi : groupOf i ≠ .reserved) (b : Block) :
    (b.execute m i).fIll = b.fIll := by
  refine Block.execute_keeps (fun c hc hg b => ?_) b
  cases c with
  | crcClr | crcByte d | encStart d | encData d | encEnd =>
    exact Block.command_keeps Block.fIll (fun _ => rfl) (fun _ => by rfl) _ b
  | decByte d =>
    exact Block.command_keeps Block.fIll (fun _ => rfl) (fun b => congrArg Prod.snd (b.takeByte_stickyFlags d)) _ b
  | reservedOp6 d | reservedOp7 d => exact absurd hg.symm hi
  | _ => cases hc

theorem Block.cmdEncData_txv_phase (m : Option Nat) (d : Byte) (b : Block) :
    (b.cmdEncData m d).txv = b.txv ∧ (b.cmdEncData m d).phase = b.phase :=
  ⟨Block.command_keeps Block.txv (fun _ => rfl) (fun _ => by rfl) _ b,
    Block.command_keeps Block.phase (fun _ => rfl) (fun _ => by rfl) _ b⟩

/-- Settles O33: each clause names the groups of commands that leave the fields alone; the last two are those of a block that
is faulted and so ignores the instruction. -/
theorem onlyNamedCommandsWriteEachField : Obligations.OnlyNamedCommandsWriteEachField := by
  intro i s t hexec
  rw [exec_eq_next_execute] at hexec
  cases hexec
  refine ⟨fun hbyte hstatus hdecode => ?_, fun hi => ?_, ?_, fun hi => ?_, fun hi => ?_, fun h6 h7 => ?_, fun hs => ?_,
    fun hs => ?_⟩
  · have hi : groupOf i ≠ .dec := by
      cases i with
      | decByte d => exact absurd rfl (hbyte d)
      | status a b c => exact absurd rfl (hstatus a b c)
      | decode a b c d => exact absurd rfl (hdecode a b c d)
      | _ => simp [groupOf]
    simpa [Block.decodeSide] using Block.execute_decodeSide Config.maxPayload hi s.block
  · have hgroup : groupOf i ≠ .enc := by
      obtain rfl | ⟨_, rfl⟩ | ⟨_, rfl⟩ | ⟨_, rfl⟩ | ⟨_, _, _, rfl⟩ | ⟨_, _, _, _, rfl⟩ | ⟨_, rfl⟩ | ⟨_, rfl⟩ := hi <;>
        simp [groupOf]
    simpa [Block.encodeSide] using Block.execute_encodeSide Config.maxPayload hgroup s.block
  · rintro ⟨d, rfl⟩
    exact s.block.cmdEncData_txv_phase _ d
  · obtain rfl | ⟨_, rfl⟩ | ⟨_, rfl⟩ := hi
    · exact Block.command_keeps Block.crc (fun _ => rfl) (fun _ => by rfl) _ s.block
    all_goals exact Block.illegalCommand_keeps Block.crc (fun _ => rfl) s.block
  · obtain ⟨henc, hdec⟩ : groupOf i ≠ .enc ∧ groupOf i ≠ .dec := by
      obtain rfl | ⟨_, rfl⟩ | ⟨_, rfl⟩ | ⟨_, rfl⟩ | ⟨_, rfl⟩ := hi <;> simp [groupOf]
    exact Block.execute_phase Config.maxPayload henc hdec s.block
  · refine Block.execute_fIll Config.maxPayload ?_ s.block
    cases i with
    | reservedOp6 d => exact absurd rfl (h6 d)
    | reservedOp7 d => exact absurd rfl (h7 d)
    | _ => simp [groupOf]
  · rwa [Block.execute_of_faulted (s.block.faulted_eq_true_iff.mpr (.inl hs))]
  · rwa [Block.execute_of_faulted (s.block.faulted_eq_true_iff.mpr (.inr hs))]

/-! ### The order of judgement (60_exceptions.md section 3) -/

/-- Of `F_ILL`, `F_SEQ`, `F_CHK`, how many are 0 in `b` and 1 in `b'`. -/
def Block.flagsRaised (b b' : Block) : Nat :=
  (!b.fIll && b'.fIll).toNat + (!b.fSeq && b'.fSeq).toNat + (!b.fChk && b'.fChk).toNat

/-- With the two sticky flags kept, only `F_CHK` can rise. -/
theorem Block.flagsRaised_of_stickyFlags {b b' : Block} (h : b'.stickyFlags = b.stickyFlags) :
    b.flagsRaised b' ≤ 1 := by
  obtain ⟨hseq, hill⟩ : b'.fSeq = b.fSeq ∧ b'.fIll = b.fIll := Prod.mk.inj h
  simp [Block.flagsRaised, hseq, hill, Bool.toNat_le]

theorem Block.flagsRaised_seqFault (b : Block) : b.flagsRaised b.seqFault ≤ 1 := by
  simp [Block.flagsRaised, Bool.toNat_le]

theorem Block.flagsRaised_illegalCommand (b : Block) : b.flagsRaised b.illegalCommand ≤ 1 := by
  obtain ⟨-, heq⟩ | ⟨-, heq⟩ := Block.illegalCommand_cases b <;> simp [heq, Block.flagsRaised, Bool.toNat_le]

theorem Block.flagsRaised_command {effect : Block → Block} (heff : ∀ b, (effect b).stickyFlags = b.stickyFlags)
    (legal : Bool) (b : Block) : b.flagsRaised (b.command legal effect) ≤ 1 := by
  obtain ⟨-, heq⟩ | ⟨-, -, heq⟩ | ⟨-, -, heq⟩ := Block.command_cases legal effect b
  · exact Block.flagsRaised_of_stickyFlags (by rw [heq])
  · rw [heq]
    exact b.flagsRaised_seqFault
  · exact Block.flagsRaised_of_stickyFlags (by rw [heq, heff])

/-- A command word raises at most one flag: a command one by its fault or its effect, a reserved word `F_ILL`. -/
theorem Block.flagsRaised_step_word (m : Option Nat) (w : CommandWord) (b : Block) :
    b.flagsRaised (b.step m (.present (.cw w))) ≤ 1 := by
  cases hdec : decodeWord w with
  | error e =>
    rw [Block.step_present_error (f := .cw w) hdec]
    exact b.flagsRaised_illegalCommand
  | ok c =>
    rw [Block.step_present_ok (f := .cw w) hdec]
    cases c with
    | crcClr | crcByte d | encStart d | encData d | encEnd => exact Block.flagsRaised_command (fun _ => by rfl) _ b
    | decByte d => exact Block.flagsRaised_command (Block.takeByte_stickyFlags d) _ b
    | reservedOp6 d | reservedOp7 d => exact b.flagsRaised_illegalCommand
    | _ => exact (rowMatches_of_decodeWord hdec).elim

theorem Block.step_word_of_reserved {w : CommandWord} (h : isReservedNumber w.toNat = true) (m : Option Nat) (b : Block) :
    b.step m (.present (.cw w)) = b.illegalCommand := by
  rw [← isReservedAnswer_decodeWord] at h
  cases hdec : decodeWord w with
  | error e => exact Block.step_present_error (f := .cw w) hdec m b
  | ok c =>
    rw [Block.step_present_ok (f := .cw w) hdec]
    rw [hdec] at h
    cases c with
    | reservedOp6 d | reservedOp7 d => rfl
    | _ => cases h

/-- Settles O23: the fault is judged before the word is read, and a reserved word before the phase. -/
theorem orderOfJudgement : Obligations.OrderOfJudgement := by
  intro s w rest hinbox
  have hstep := step_of_inbox_cons hinbox
  refine ⟨fun hs => ?_, fun hseq hill hw => ?_, fun t ht => ?_⟩
  · rw [hstep, Block.step_present_of_faulted (s.block.faulted_eq_true_iff.mpr hs)]
  · rw [hstep, Block.step_word_of_reserved (decide_eq_true hw),
      Block.illegalCommand_of_not_faulted (s.block.faulted_eq_false_iff.mpr ⟨hseq, hill⟩)]
  · cases hstep.symm.trans ht
    exact Block.flagsRaised_step_word Config.maxPayload w s.block

end Sys2Proof.Machine
end

section
/-! PROOFS. The invariants of the state, 10_state.md section 10, kept by every step; and the frame check they speak of,
42_decode.md section 1. -/

namespace Sys2Proof.Machine

/-! ### The frame check (42_decode.md rule R107) -/

/-- A sequence passes the check exactly when it is a body of at least one byte and the body's checksum, low byte first. -/
theorem frameOk_append_pair {body : List Byte} (hne : body ≠ []) (lo hi : Byte) :
    frameOk (body ++ [lo, hi]) = true ↔ crc16 body = assemble lo hi := by
  cases hrev : body.reverse with
  | nil => exact absurd (List.reverse_eq_nil_iff.mp hrev) hne
  | cons x rest =>
    have hbody : (x :: rest).reverse = body := by rw [← hrev, List.reverse_reverse]
    have hframe : (body ++ [lo, hi]).reverse = hi :: lo :: x :: rest := by
      rw [List.reverse_append, hrev]
      rfl
    simp only [frameOk, hframe, hbody, beq_iff_eq]

theorem frameOk_frameOf {body : List Byte} (hne : body ≠ []) : frameOk (frameOf body) = true :=
  (frameOk_append_pair hne _ _).mpr (assemble_checksum _).symm

/-! ### The capacity (10_state.md rule R19) -/

theorem withinMaxPayload_eq_true_iff (m : Option Nat) (n : Nat) :
    withinMaxPayload m n = true ↔ ∀ k, m = some k → n ≤ k := by
  cases m <;> simp [withinMaxPayload]

theorem withinMaxPayload_of_le {m : Option Nat} {n n' : Nat} (h : withinMaxPayload m n = true) (hle : n' ≤ n) :
    withinMaxPayload m n' = true := by
  rw [withinMaxPayload_eq_true_iff] at h ⊢
  exact fun k hk => hle.trans (h k hk)

/-- With room left, the payload after ENC_DATA is the buffer before it. -/
theorem Block.withinMaxPayload_of_payloadHasRoom {m : Option Nat} {b : Block} (h : b.payloadHasRoom m = true) :
    withinMaxPayload m b.txbuf.length = true := by
  rw [Block.payloadHasRoom_eq_true_iff] at h
  exact (withinMaxPayload_eq_true_iff m _).mpr fun k hk => Nat.le_of_lt_succ (h k hk)

/-! ### Each kind of change keeps the invariants -/

section
variable {m : Option Nat} {b : Block} (h : b.Inv m)
include h

theorem Block.Inv.seqFault : b.seqFault.Inv m where
  idx_counts_open_decode := h.idx_counts_open_decode
  not_both_results := h.not_both_results
  no_result_while_decoding := h.no_result_while_decoding
  open_frame _ hf := by simp [Block.faulted] at hf
  valid_frame := h.valid_frame
  crc_of_cmd_id := h.crc_of_cmd_id
  crc_of_cmd_id_status := h.crc_of_cmd_id_status
  capacity := h.capacity

theorem Block.Inv.setIll : ({ b with fIll := true } : Block).Inv m where
  idx_counts_open_decode := h.idx_counts_open_decode
  not_both_results := h.not_both_results
  no_result_while_decoding := h.no_result_while_decoding
  open_frame _ hf := by simp [Block.faulted] at hf
  valid_frame := h.valid_frame
  crc_of_cmd_id := h.crc_of_cmd_id
  crc_of_cmd_id_status := h.crc_of_cmd_id_status
  capacity := h.capacity

theorem Block.Inv.illegalCommand : b.illegalCommand.Inv m := by
  obtain ⟨-, heq⟩ | ⟨-, heq⟩ := Block.illegalCommand_cases b <;> rw [heq]
  · exact h
  · exact h.setIll

/-- A command keeps the invariants as soon as its effect does, where it is legal. -/
theorem Block.Inv.command {legal : Bool} {effect : Block → Block}
    (heff : b.faulted = false → legal = true → (effect b).Inv m) : (b.command legal effect).Inv m := by
  obtain ⟨-, heq⟩ | ⟨-, -, heq⟩ | ⟨hf, hlegal, heq⟩ := Block.command_cases legal effect b <;> rw [heq]
  · exact h
  · exact h.seqFault
  · exact heff hf hlegal

theorem Block.Inv.idx_of_ne_dec (hp : b.phase ≠ .dec) : b.idx = 0 :=
  not_not.mp (mt h.idx_counts_open_decode.mpr hp)

theorem Block.Inv.dec_of_idx {k : Fin 4} (hk : b.idx = k) (hne : k ≠ 0) : b.phase = .dec :=
  h.idx_counts_open_decode.mpr (hk ▸ hne)

/-- In IDLE nothing is said of `crc`. -/
theorem Block.Inv.setCrc (hp : b.phase = .idle) (c : Crc) : ({ b with crc := c } : Block).Inv m where
  idx_counts_open_decode := h.idx_counts_open_decode
  not_both_results := h.not_both_results
  no_result_while_decoding := h.no_result_while_decoding
  open_frame henc := by simp [hp] at henc
  valid_frame := h.valid_frame
  crc_of_cmd_id hdec := by simp [hp] at hdec
  crc_of_cmd_id_status hdec := by simp [hp] at hdec
  capacity := h.capacity

theorem Block.Inv.encStart (hp : b.phase = .idle) (d : Byte) :
    ({ b with txbuf := [d], txv := false, crc := crcByte 0x0000#16 d, phase := .enc } : Block).Inv m where
  idx_counts_open_decode := by simp [h.idx_of_ne_dec (by simp [hp])]
  not_both_results := h.not_both_results
  no_result_while_decoding hdec := by cases hdec
  open_frame _ _ := ⟨rfl, le_rfl, withinMaxPayload_of_le h.capacity (Nat.zero_le _), rfl⟩
  valid_frame htxv := by cases htxv
  crc_of_cmd_id hdec := by cases hdec
  crc_of_cmd_id_status hdec := by cases hdec
  capacity := withinMaxPayload_of_le h.capacity (Nat.zero_le _)

theorem Block.Inv.encData (hf : b.faulted = false) (hp : b.phase = .enc) (hroom : b.payloadHasRoom m = true) (d : Byte) :
    ({ b with txbuf := b.txbuf ++ [d], crc := crcByte b.crc d } : Block).Inv m := by
  obtain ⟨htxv, -, -, hcrc⟩ := h.open_frame hp hf
  have hcap : withinMaxPayload m ((b.txbuf ++ [d]).length - 1) = true := by
    simpa using Block.withinMaxPayload_of_payloadHasRoom hroom
  exact {
    idx_counts_open_decode := h.idx_counts_open_decode
    not_both_results := h.not_both_results
    no_result_while_decoding := h.no_result_while_decoding
    open_frame := fun _ _ => ⟨htxv, by simp, hcap, by rw [crc16_concat, ← hcrc]⟩
    valid_frame := fun hvalid => by simp [htxv] at hvalid
    crc_of_cmd_id := fun hdec => by simp [hp] at hdec
    crc_of_cmd_id_status := fun hdec => by simp [hp] at hdec
    capacity := withinMaxPayload_of_le hcap (by dsimp only; omega) }

/-- ENC_END leaves the frame of the body that was open. -/
theorem Block.Inv.encEnd (hf : b.faulted = false) (hp : b.phase = .enc) :
    ({ b.appendChecksum with txv := true, phase := .idle } : Block).Inv m := by
  obtain ⟨-, hlen, hcap, hcrc⟩ := h.open_frame hp hf
  have hframe : b.appendChecksum.txbuf = frameOf b.txbuf := by
    rw [Block.appendChecksum_eq, hcrc]
    rfl
  have hlength : b.appendChecksum.txbuf.length = b.txbuf.length + 2 := by rw [hframe, frameOf_length]
  have hne : b.txbuf ≠ [] := List.length_pos_iff.mp hlen
  exact {
    idx_counts_open_decode := by simp [h.idx_of_ne_dec (by simp [hp])]
    not_both_results := h.not_both_results
    no_result_while_decoding := fun hdec => by cases hdec
    open_frame := fun henc => by cases henc
    valid_frame := fun _ => ⟨by rw [hlength]; omega, by simp, by rw [hframe]; exact frameOk_frameOf hne⟩
    crc_of_cmd_id := fun hdec => by cases hdec
    crc_of_cmd_id_status := fun hdec => by cases hdec
    capacity := withinMaxPayload_of_le hcap (by rw [hlength]; omega) }

theorem Block.Inv.takeCmdId (d : Byte) : (b.takeCmdId d).Inv m where
  idx_counts_open_decode := by simp
  not_both_results := by simp
  no_result_while_decoding _ := ⟨rfl, rfl⟩
  open_frame henc := by cases henc
  valid_frame htxv := by
    obtain ⟨hlen, -, hok⟩ := h.valid_frame htxv
    exact ⟨hlen, by simp, hok⟩
  crc_of_cmd_id _ _ := rfl
  crc_of_cmd_id_status _ hk := by simp at hk
  capacity := h.capacity

theorem Block.Inv.takeStatus (hk : b.idx = 1) (d : Byte) : (b.takeStatus d).Inv m := by
  have hp : b.phase = .dec := h.dec_of_idx hk (by decide)
  exact {
    idx_counts_open_decode := by simp [hp]
    not_both_results := h.not_both_results
    no_result_while_decoding := h.no_result_while_decoding
    open_frame := fun henc => by simp [hp] at henc
    valid_frame := h.valid_frame
    crc_of_cmd_id := fun _ hone => by simp at hone
    crc_of_cmd_id_status := fun _ _ => by
      rw [Block.takeStatus_crc, h.crc_of_cmd_id hp hk]
      rfl
    capacity := h.capacity }

theorem Block.Inv.takeChecksumLo (hk : b.idx = 2) (d : Byte) : (b.takeChecksumLo d).Inv m := by
  have hp : b.phase = .dec := h.dec_of_idx hk (by decide)
  exact {
    idx_counts_open_decode := by simp [hp]
    not_both_results := h.not_both_results
    no_result_while_decoding := h.no_result_while_decoding
    open_frame := fun henc => by simp [hp] at henc
    valid_frame := h.valid_frame
    crc_of_cmd_id := fun _ hone => by simp at hone
    crc_of_cmd_id_status := fun _ _ => h.crc_of_cmd_id_status hp (.inl hk)
    capacity := h.capacity }

/-- The decode is closed with one of its two results, of which the open decode had none. -/
theorem Block.Inv.takeChecksumHi (hk : b.idx = 3) (d : Byte) : (b.takeChecksumHi d).Inv m := by
  obtain ⟨hdv, hchk⟩ := h.no_result_while_decoding (h.dec_of_idx hk (by decide))
  have hvalid (htxv : b.txv = true) : 3 ≤ b.txbuf.length ∧ Phase.idle ≠ .enc ∧ frameOk b.txbuf = true := by
    obtain ⟨hlen, -, hok⟩ := h.valid_frame htxv
    exact ⟨hlen, by simp, hok⟩
  obtain ⟨-, heq⟩ | ⟨-, heq⟩ := Block.takeChecksumHi_cases d b <;> rw [heq]
  all_goals exact {
    idx_counts_open_decode := by simp
    not_both_results := by simp [hdv, hchk]
    no_result_while_decoding := fun hdec => by cases hdec
    open_frame := fun henc => by cases henc
    valid_frame := hvalid
    crc_of_cmd_id := fun hdec => by cases hdec
    crc_of_cmd_id_status := fun hdec => by cases hdec
    capacity := h.capacity }

theorem Block.Inv.takeByte (d : Byte) : (b.takeByte d).Inv m := by
  have hidx : b.idx = 0 ∨ b.idx = 1 ∨ b.idx = 2 ∨ b.idx = 3 := by omega
  obtain hk | hk | hk | hk := hidx
  · rw [Block.takeByte_of_idx_zero d hk]
    exact h.takeCmdId d
  · rw [Block.takeByte_of_idx_one d hk]
    exact h.takeStatus hk d
  · rw [Block.takeByte_of_idx_two d hk]
    exact h.takeChecksumLo hk d
  · rw [Block.takeByte_of_idx_three d hk]
    exact h.takeChecksumHi hk d

end

/-! ### Instructions, inputs and steps -/

theorem Block.Inv.execute_of_isCommand {m : Option Nat} {b : Block} (h : b.Inv m) {c : Instr} (hc : isCommand c = true) :
    (b.execute m c).Inv m := by
  cases c with
  | crcClr =>
    rw [Block.execute_crcClr]
    exact h.command fun _ hlegal => h.setCrc (beq_iff_eq.mp hlegal) _
  | crcByte d =>
    rw [Block.execute_crcByte]
    exact h.command fun _ hlegal => h.setCrc (beq_iff_eq.mp hlegal) _
  | encStart d =>
    rw [Block.execute_encStart]
    exact h.command fun _ hlegal => h.encStart (beq_iff_eq.mp hlegal) d
  | encData d =>
    rw [Block.execute_encData]
    refine h.command fun hf hlegal => ?_
    obtain ⟨hp, hroom⟩ := Bool.and_eq_true_iff.mp hlegal
    exact h.encData hf (beq_iff_eq.mp hp) hroom d
  | encEnd =>
    rw [Block.execute_encEnd]
    exact h.command fun hf hlegal => h.encEnd hf (beq_iff_eq.mp hlegal)
  | decByte d =>
    rw [Block.execute_decByte]
    exact h.command fun _ _ => h.takeByte d
  | reservedOp6 d | reservedOp7 d => exact h.illegalCommand
  | _ => cases hc

theorem Block.Inv.execute {m : Option Nat} {b : Block} (h : b.Inv m) (i : Instr) : (b.execute m i).Inv m :=
  Block.execute_induction (fun _ hc _ _ hb => hb.execute_of_isCommand hc) h

theorem Block.inv_reset (m : Option Nat) : Block.reset.Inv m where
  idx_counts_open_decode := by decide
  not_both_results := by decide
  no_result_while_decoding := by decide
  open_frame henc := by cases henc
  valid_frame htxv := by cases htxv
  crc_of_cmd_id hdec := by cases hdec
  crc_of_cmd_id_status hdec := by cases hdec
  capacity := (withinMaxPayload_eq_true_iff m _).mpr fun _ _ => Nat.zero_le _

/-- Settles O30: every field has its value of rule R22. -/
theorem invariantAtReset : Obligations.InvariantAtReset := ⟨Block.inv_reset, Block.inv_reset _⟩

theorem Block.Inv.step {m : Option Nat} {b : Block} (h : b.Inv m) (x : HostInput) : (b.step m x).Inv m := by
  cases x with
  | reset => exact Block.inv_reset m
  | present f =>
    cases hf : decode f with
    | ok i =>
      rw [Block.step_present_ok hf]
      exact h.execute i
    | error e =>
      rw [Block.step_present_error hf]
      exact h.illegalCommand

/-- Settles O31: an input is RESET, an instruction, whose commands each keep the invariants, or a reserved word. -/
theorem stepKeepsInvariant : Obligations.StepKeepsInvariant := by
  refine ⟨fun m x b h => h.step x, fun s t h hstep => ?_⟩
  cases hinbox : s.inbox with
  | nil =>
    cases (step_of_inbox_nil hinbox).symm.trans hstep
    exact h
  | cons x rest =>
    cases (step_of_inbox_cons hinbox).symm.trans hstep
    exact h.step x

/-- Settles O32: `DV` rises only at the fourth byte, on a match, and `crc` is then that of the latched pair. -/
theorem decodeValidMeansChecksumMatched : Obligations.DecodeValidMeansChecksumMatched := by
  intro s t d hinv hexec hbefore hafter
  obtain rfl : { s with block := s.block.cmdDecByte d } = t := by simpa [exec, execDecByte, State.onBlock] using hexec
  dsimp only at hafter ⊢
  obtain ⟨-, heq⟩ | ⟨-, -, heq⟩ | ⟨-, -, -, heq⟩ | ⟨-, -, -, heq⟩ | ⟨-, -, -, heq⟩ | ⟨-, -, hk, heq⟩ :=
    Block.cmdDecByte_cases d s.block
  on_goal 6 =>
    have hcrc := hinv.crc_of_cmd_id_status (hinv.dec_of_idx hk (by decide)) (.inr hk)
    obtain ⟨hmatch, hdeliver⟩ | ⟨-, hmismatch⟩ := Block.takeChecksumHi_cases d s.block
    · rw [heq, hdeliver, ← eq_assemble_iff, hmatch, hcrc]
    · simp [heq, hmismatch, hbefore] at hafter
  all_goals simp [heq, hbefore] at hafter

end Sys2Proof.Machine
end

section
/-! PROOFS. The transaction level, 41_encode.md section 1 and 42_decode.md sections 1 and 3: which calls fail, that a frame
verifies, and which corruptions are caught; and the payload layouts of 30_encoding.md section A.4. -/

namespace Sys2Proof.Machine

/-! ### Validation (41_encode.md rules R92, R94) -/

theorem encodeFrame_of_fits {r : Int} {p : List Int} (h : (r :: p).all fitsByte = true) :
    encodeFrame r p = .ok (frameOf ((r :: p).map narrow)) := encodeFrame_ok (toBytes_of_all_fitsByte h)

theorem encodeFrame_of_not_fits {r : Int} {p : List Int} (h : (r :: p).all fitsByte = false) :
    encodeFrame r p = .error .validationError := encodeFrame_error (toBytes_of_not_all_fitsByte h)

theorem all_fitsByte_eq_false_iff {vs : List Int} : vs.all fitsByte = false ↔ ∃ v ∈ vs, v < 0 ∨ 255 < v := by
  simp only [List.all_eq_false, ← Bool.eq_false_iff, fitsByte_eq_false_iff]

/-- Settles O37: either every element fits and there is a frame, or one does not and there is the one error. -/
theorem encodeValidatesEverything : Obligations.EncodeValidatesEverything := by
  intro r p
  rw [← all_fitsByte_eq_false_iff]
  cases hfits : (r :: p).all fitsByte with
  | false => simp [encodeFrame_of_not_fits hfits]
  | true => simp [encodeFrame_of_fits hfits]

/-! ### Verification (42_decode.md rules R105, R107, R108) -/

theorem decodeStatus_eq_ok_iff {f0 f1 f2 f3 : Byte} :
    decodeStatus f0 f1 f2 f3 = .ok (f0, f1) ↔ crc16 [f0, f1] = assemble f2 f3 := by
  rw [decodeStatus]
  split <;> simp [*]

theorem decodeStatus_eq_error_iff {f0 f1 f2 f3 : Byte} :
    decodeStatus f0 f1 f2 f3 = .error .checksumError ↔ crc16 [f0, f1] ≠ assemble f2 f3 := by
  rw [decodeStatus]
  split <;> simp [*]

/-- Settles O41: both compare the checksum of the first two bytes with the last two. -/
theorem decodeStatusIsFrameOk : Obligations.DecodeStatusIsFrameOk := fun f0 f1 f2 f3 =>
  decodeStatus_eq_ok_iff.trans (frameOk_append_pair (body := [f0, f1]) (by simp) f2 f3).symm

/-- Settles O39: a frame is a body and its checksum, and a body of two bytes is what `decode_status` reads. -/
theorem encodedFrameVerifies : Obligations.EncodedFrameVerifies := by
  refine ⟨fun r p f hf => ?_, fun a b => ?_⟩
  · cases hfits : (r :: p).all fitsByte with
    | false => cases (encodeFrame_of_not_fits hfits).symm.trans hf
    | true =>
      cases (encodeFrame_of_fits hfits).symm.trans hf
      exact frameOk_frameOf (by simp)
  · exact ⟨checksumLo (crc16 [a, b]), checksumHi (crc16 [a, b]), encodeFrame_ok (toBytes_map_toNat [a, b]),
      decodeStatus_eq_ok_iff.mpr (assemble_checksum _).symm⟩

/-! ### Detection (42_decode.md rule R114) -/

/-- What a corruption `e` of the four bytes, byte 0 lowest, adds to the comparison of the checksums. -/
def syndrome (e : BitVec 32) : Crc :=
  crc16 [e.extractLsb' 0 8, e.extractLsb' 8 8] ^^^ assemble (e.extractLsb' 16 8) (e.extractLsb' 24 8)

theorem crc16_pair_xor (a b x y : Byte) : crc16 [a ^^^ x, b ^^^ y] = crc16 [a, b] ^^^ crc16 [x, y] :=
  crcXorLinear [a, b] [x, y] rfl

theorem syndrome_xor (e e' : BitVec 32) : syndrome (e ^^^ e') = syndrome e ^^^ syndrome e' := by
  simp only [syndrome, BitVec.extractLsb'_xor, crc16_pair_xor, assemble_xor]
  ac_rfl

/-- A corruption of a passing frame is caught exactly when its syndrome is not zero, whatever the frame. -/
theorem decodeStatus_corrupted {a b lo hi : Byte} (hok : decodeStatus a b lo hi = .ok (a, b)) {e : BitVec 32}
    (he : syndrome e ≠ 0x0000#16) :
    decodeStatus (a ^^^ e.extractLsb' 0 8) (b ^^^ e.extractLsb' 8 8) (lo ^^^ e.extractLsb' 16 8)
      (hi ^^^ e.extractLsb' 24 8) = .error .checksumError := by
  rw [decodeStatus_eq_error_iff, crc16_pair_xor, assemble_xor, decodeStatus_eq_ok_iff.mp hok]
  intro heq
  exact he (BitVec.xor_eq_zero_iff.mpr ((BitVec.xor_right_inj _).mp heq))

/-- The 32 corruptions of one bit have 32 syndromes, none of them zero. -/
theorem syndrome_bit_ne_zero : ∀ j : Fin 32, syndrome (1#32 <<< j.val) ≠ 0x0000#16 := by decide +kernel

theorem syndrome_bit_injective : ∀ j k : Fin 32, syndrome (1#32 <<< j.val) = syndrome (1#32 <<< k.val) → j = k := by
  decide +kernel

/-- Two different bits overlap nowhere. -/
theorem bit_or_bit_eq_xor {j k : Fin 32} (h : j ≠ k) :
    (1#32 <<< j.val) ||| (1#32 <<< k.val) = (1#32 <<< j.val) ^^^ (1#32 <<< k.val) := by
  have hjk : (j : Nat) ≠ k := fun heq => h (Fin.ext heq)
  rw [← BitVec.twoPow_eq, ← BitVec.twoPow_eq]
  ext i hi
  rw [BitVec.getElem_or, BitVec.getElem_xor, BitVec.getElem_twoPow, BitVec.getElem_twoPow]
  by_cases hj : i = j
  · simp [hj, hjk]
  · simp [hj]

/-- Settles O42: `crc16` is injective on two bytes, the comparison reads all 16 received bits, and the syndromes of one and of
two bits are not zero. -/
theorem detectionStrength : Obligations.DetectionStrength := by
  refine ⟨fun a b a' b' lo hi hok hne => ?_, fun a b lo hi lo' hi' hok hne => ?_, fun st lo hi e hok he => ?_⟩
  · rw [decodeStatus_eq_error_iff, ← decodeStatus_eq_ok_iff.mp hok]
    intro heq
    obtain ⟨rfl, rfl⟩ := crc16_pair_injective heq
    exact hne rfl
  · rw [decodeStatus_eq_error_iff, decodeStatus_eq_ok_iff.mp hok]
    intro heq
    obtain ⟨rfl, rfl⟩ := assemble_injective heq
    exact hne rfl
  · refine decodeStatus_corrupted hok ?_
    obtain ⟨j, rfl⟩ | ⟨j, k, hjk, rfl⟩ := he
    · exact syndrome_bit_ne_zero j
    · rw [bit_or_bit_eq_xor hjk, syndrome_xor, ne_eq, BitVec.xor_eq_zero_iff]
      exact fun heq => hjk (syndrome_bit_injective j k heq)

/-! ### Payload layouts (30_encoding.md rules R52, R54) -/

/-- Below 65536 the three elements are bytes. -/
theorem rotatePayload_eq_map_toNat {delta : Int} (h : delta.natAbs < 65536) :
    rotatePayload delta =
      [if delta < 0 then 1#8 else 0#8, BitVec.ofNat 8 (delta.natAbs % 256), BitVec.ofNat 8 (delta.natAbs / 256)].map
        fun b => (b.toNat : Int) := by
  have hhi : delta.natAbs / 256 % 256 = delta.natAbs / 256 := Nat.mod_eq_of_lt (by omega)
  by_cases hneg : delta < 0 <;> simp [rotatePayload, hneg, hhi]

/-- Settles O50: the layout is that of three bytes, and from 65536 on the third element does not fit one. -/
theorem rotatePayloadLayout : Obligations.RotatePayloadLayout := by
  refine ⟨fun delta hne hlt => ?_, fun delta hge => ?_, rfl⟩
  · refine ⟨_, _, _, (congrArg toBytes (rotatePayload_eq_map_toNat hlt)).trans (toBytes_map_toNat _), ?_, ?_, ?_⟩
    · by_cases hneg : delta < 0 <;> simp [hneg]
    · by_cases hneg : delta < 0 <;> simp [hneg] <;> omega
    · simp only [BitVec.toNat_ofNat]
      omega
  · refine encodeFrame_error (toBytes_error_of_mem (v := ((delta.natAbs / 256 : Nat) : Int)) ?_ (.inr (by omega)))
    simp [rotatePayload]

/-- Settles O51: a pair adds two elements at the front and moves the others up by two. -/
theorem brightnessPayloadLayout : Obligations.BrightnessPayloadLayout := by
  intro pairs
  induction pairs with
  | nil => simp [brightnessPayload]
  | cons pair pairs ih =>
    obtain ⟨hlen, helem⟩ := ih
    have hcons : brightnessPayload (pair :: pairs) = pair.1 :: pair.2 :: brightnessPayload pairs := rfl
    refine ⟨by rw [hcons, List.length_cons, List.length_cons, hlen, List.length_cons]; omega, fun j => ?_⟩
    cases j with
    | zero => exact ⟨rfl, rfl⟩
    | succ j => exact helem j

end Sys2Proof.Machine
end

section
/-! PROOFS. The transactions from IDLE, 40_crc.md section 4, 41_encode.md section 2, 42_decode.md section 2: CRC16, ENCODE and
the request frames, DECODE and the STATUS frame, each as one whole change of the block and the value returned. -/

namespace Sys2Proof.Machine

section
variable {b : Block} (hf : b.faulted = false)
include hf

/-! ### CRC16 (40_crc.md rule R84) -/

theorem Block.cmdCrcClr_of_idle (hp : b.phase = .idle) : b.cmdCrcClr = { b with crc := 0x0000#16 } := by
  rw [Block.cmdCrcClr, beq_iff_eq.mpr hp, Block.command_of_legal hf]

theorem Block.cmdCrcByte_of_idle (hp : b.phase = .idle) (d : Byte) :
    b.cmdCrcByte d = { b with crc := crcByte b.crc d } := by
  rw [Block.cmdCrcByte, beq_iff_eq.mpr hp, Block.command_of_legal hf]

theorem Block.foldl_cmdCrcByte_of_idle (hp : b.phase = .idle) (ds : List Byte) :
    ds.foldl (fun b d => b.cmdCrcByte d) b = { b with crc := crcFrom b.crc ds } := by
  induction ds generalizing b with
  | nil => rfl
  | cons d ds ih =>
    rw [List.foldl_cons, Block.cmdCrcByte_of_idle hf hp]
    exact ih hf hp

theorem Block.runCrc16_of_idle (hp : b.phase = .idle) (ds : List Byte) : b.runCrc16 ds = { b with crc := crc16 ds } := by
  rw [Block.runCrc16, Block.cmdCrcClr_of_idle hf hp]
  exact Block.foldl_cmdCrcByte_of_idle (b := { b with crc := 0x0000#16 }) hf hp ds

/-! ### The three stages of ENCODE (41_encode.md rules R95 to R97) -/

theorem Block.cmdEncStart_of_idle (hp : b.phase = .idle) (d : Byte) :
    b.cmdEncStart d = { b with txbuf := [d], txv := false, crc := crc16 [d], phase := .enc } := by
  rw [Block.cmdEncStart, beq_iff_eq.mpr hp, Block.command_of_legal hf]
  rfl

theorem Block.foldl_cmdEncData_of_room {m : Option Nat} {ds : List Byte} (hp : b.phase = .enc)
    (hroom : ∀ n, m = some n → b.txbuf.length + ds.length ≤ n + 1) :
    ds.foldl (fun b d => b.cmdEncData m d) b = { b with txbuf := b.txbuf ++ ds, crc := crcFrom b.crc ds } := by
  induction ds generalizing b with
  | nil => simp [crcFrom]
  | cons d ds ih =>
    simp only [List.length_cons] at hroom
    rw [List.foldl_cons, Block.cmdEncData_of_room hf hp (fun n hn => by have := hroom n hn; omega)]
    refine (ih (b := { b with txbuf := b.txbuf ++ [d], crc := crcByte b.crc d }) hf hp (fun n hn => ?_)).trans ?_
    · have := hroom n hn
      simp only [List.length_append, List.length_singleton]
      omega
    · rw [List.append_assoc]
      rfl

theorem Block.cmdEncEnd_of_enc (hp : b.phase = .enc) :
    b.cmdEncEnd = { b with txbuf := b.txbuf ++ checksumBytes b.crc, txv := true, phase := .idle } := by
  rw [Block.cmdEncEnd, beq_iff_eq.mpr hp, Block.command_of_legal hf, Block.appendChecksum_eq]
  rfl

/-- Once the payload is MAX_PAYLOAD long, one more byte is a sequence fault, and the bytes after it are ignored. -/
theorem Block.foldl_cmdEncData_of_full {n : Nat} {ds : List Byte} (hfull : n + 1 ≤ b.txbuf.length) (hne : ds ≠ []) :
    ds.foldl (fun b d => b.cmdEncData (some n) d) b = b.seqFault := by
  obtain ⟨d, ds, rfl⟩ := List.exists_cons_of_ne_nil hne
  rw [List.foldl_cons, Block.cmdEncData_of_full hf hfull]
  exact List.foldl_fixed' (Block.cmdEncData_of_faulted (by simp [Block.faulted]) _) ds

/-! ### ENCODE (41_encode.md rule R98) -/

/-- The block with a frame open: `register` and the payload so far. -/
def Block.openFrame (body : List Byte) (b : Block) : Block :=
  { b with txbuf := body, txv := false, crc := crc16 body, phase := .enc }

/-- The block with a frame finished. -/
def Block.withFrame (body : List Byte) (b : Block) : Block :=
  { b with txbuf := frameOf body, txv := true, crc := crc16 body, phase := .idle }

theorem Block.foldl_cmdEncData_openFrame {m : Option Nat} {r : Byte} {p : List Byte}
    (hroom : ∀ n, m = some n → p.length ≤ n) :
    p.foldl (fun b d => b.cmdEncData m d) (b.openFrame [r]) = b.openFrame (r :: p) :=
  Block.foldl_cmdEncData_of_room (b := b.openFrame [r]) hf rfl fun n hn => by
    have := hroom n hn
    simp only [Block.openFrame, List.length_singleton]
    omega

theorem Block.runEncode_of_idle {m : Option Nat} {r : Byte} {p : List Byte} (hp : b.phase = .idle)
    (hroom : ∀ n, m = some n → p.length ≤ n) : b.runEncode m r p = b.withFrame (r :: p) := by
  have hstart : b.cmdEncStart r = b.openFrame [r] := Block.cmdEncStart_of_idle hf hp r
  have hdata := Block.foldl_cmdEncData_openFrame hf (r := r) hroom
  rw [Block.runEncode, hstart, hdata]
  exact Block.cmdEncEnd_of_enc (b := b.openFrame (r :: p)) hf rfl

theorem Block.encodeReply_withFrame (body : List Byte) :
    (b.withFrame body).encodeReply = some (.frame (frameOf body)) := by
  have hf' : (b.withFrame body).faulted = false := hf
  rw [Block.encodeReply, hf']
  rfl

/-- 41_encode.md rule R98, when the operands are bytes and the payload is within MAX_PAYLOAD. -/
theorem Block.encodeCall_of_idle {m : Option Nat} {r : Int} {p : List Int} {r' : Byte} {p' : List Byte}
    (hp : b.phase = .idle) (hr : toByte r = .ok r') (hps : toBytes p = .ok p') (hroom : ∀ n, m = some n → p'.length ≤ n) :
    b.encodeCall m r p = (b.withFrame (r' :: p'), some (.frame (frameOf (r' :: p')))) := by
  rw [Block.encodeCall_of_ok hr hps, Block.runEncode_of_idle hf hp hroom, Block.encodeReply_withFrame hf]

/-- 41_encode.md rules R96 and R98, when the payload is longer than MAX_PAYLOAD. -/
theorem Block.runEncode_of_too_long {n : Nat} {r : Byte} {p : List Byte} (hp : b.phase = .idle) (hlen : n < p.length) :
    b.runEncode (some n) r p = (b.openFrame (r :: p.take n)).seqFault := by
  have hstart : b.cmdEncStart r = b.openFrame [r] := Block.cmdEncStart_of_idle hf hp r
  have hroom : ∀ k, some n = some k → (p.take n).length ≤ k := by
    rintro k ⟨⟩
    exact List.length_take_le n p
  have hfull : n + 1 ≤ (b.openFrame (r :: p.take n)).txbuf.length := by
    simp only [Block.openFrame, List.length_cons, List.length_take]
    omega
  have hne : p.drop n ≠ [] := by
    rw [ne_eq, List.drop_eq_nil_iff]
    omega
  have hdata : p.foldl (fun b d => b.cmdEncData (some n) d) (b.openFrame [r]) = (b.openFrame (r :: p.take n)).seqFault := by
    calc p.foldl (fun b d => b.cmdEncData (some n) d) (b.openFrame [r])
        = (p.drop n).foldl (fun b d => b.cmdEncData (some n) d)
            ((p.take n).foldl (fun b d => b.cmdEncData (some n) d) (b.openFrame [r])) := by
          rw [← List.foldl_append, List.take_append_drop]
      _ = (b.openFrame (r :: p.take n)).seqFault := by
          rw [Block.foldl_cmdEncData_openFrame hf hroom]
          exact Block.foldl_cmdEncData_of_full (b := b.openFrame (r :: p.take n)) hf hfull hne
  rw [Block.runEncode, hstart, hdata]
  exact Block.cmdEncEnd_of_faulted (by simp [Block.faulted])

/-! ### DECODE (42_decode.md rules R110 to R113) -/

theorem Block.cmdDecByte_of_not_enc (hp : b.phase ≠ .enc) (d : Byte) : b.cmdDecByte d = b.takeByte d := by
  change b.command (b.phase != .enc) (Block.takeByte d) = _
  rw [bne_iff_ne.mpr hp, Block.command_of_legal hf]

/-- The block once three bytes of a response have been taken from IDLE. -/
def Block.receivedThree (b0 b1 b2 : Byte) (b : Block) : Block :=
  { b with crc := crc16 [b0, b1], phase := .dec, idx := 3, rCmd := b0, rStatus := b1, rLo := b2, dv := false, fChk := false }

theorem Block.runDecode_of_idle (hp : b.phase = .idle) (hk : b.idx = 0) (b0 b1 b2 b3 : Byte) :
    b.runDecode b0 b1 b2 b3 = (b.receivedThree b0 b1 b2).takeChecksumHi b3 := by
  have h0 : b.cmdDecByte b0 = b.takeCmdId b0 := by
    rw [Block.cmdDecByte_of_not_enc hf (by simp [hp]), Block.takeByte_of_idx_zero _ hk]
  have h1 : (b.takeCmdId b0).cmdDecByte b1 = (b.takeCmdId b0).takeStatus b1 :=
    Block.cmdDecByte_of_not_enc (b := b.takeCmdId b0) hf (by simp) b1
  have h2 : ((b.takeCmdId b0).takeStatus b1).cmdDecByte b2 = b.receivedThree b0 b1 b2 :=
    Block.cmdDecByte_of_not_enc (b := (b.takeCmdId b0).takeStatus b1) hf (by simp) b2
  rw [Block.runDecode, h0, h1, h2]
  exact Block.cmdDecByte_of_not_enc (b := b.receivedThree b0 b1 b2) hf (by simp [Block.receivedThree]) b3

/-- The block after a DECODE whose checksum matched. -/
def Block.delivered (b0 b1 b2 : Byte) (b : Block) : Block :=
  { b with
    crc := crc16 [b0, b1], phase := .idle, idx := 0, rCmd := b0, rStatus := b1, rLo := b2
    resCmd := b0, resStatus := b1, dv := true, fChk := false }

/-- The block after a DECODE whose checksum did not match. -/
def Block.rejected (b0 b1 b2 : Byte) (b : Block) : Block :=
  { b with
    crc := crc16 [b0, b1], phase := .idle, idx := 0, rCmd := b0, rStatus := b1, rLo := b2
    dv := false, fChk := true }

/-- 42_decode.md rule R113, on a match. -/
theorem Block.decodeCall_of_match {b0 b1 b2 b3 : Byte} (hp : b.phase = .idle) (hk : b.idx = 0)
    (hok : decodeStatus b0 b1 b2 b3 = .ok (b0, b1)) :
    b.decodeCall b0 b1 b2 b3 = (b.delivered b0 b1 b2, some (.status b0 b1)) := by
  have hrun : b.runDecode b0 b1 b2 b3 = b.delivered b0 b1 b2 := by
    rw [Block.runDecode_of_idle hf hp hk]
    exact if_pos (decodeStatus_eq_ok_iff.mp hok).symm
  have hf' : (b.delivered b0 b1 b2).faulted = false := hf
  rw [Block.decodeCall, hrun, Block.decodeReply, hf']
  rfl

/-- 42_decode.md rule R113, on a mismatch. -/
theorem Block.decodeCall_of_mismatch {b0 b1 b2 b3 : Byte} (hp : b.phase = .idle) (hk : b.idx = 0)
    (herr : decodeStatus b0 b1 b2 b3 = .error .checksumError) :
    b.decodeCall b0 b1 b2 b3 = (b.rejected b0 b1 b2, some (.error .checksumError)) := by
  have hrun : b.runDecode b0 b1 b2 b3 = b.rejected b0 b1 b2 := by
    rw [Block.runDecode_of_idle hf hp hk]
    exact if_neg (decodeStatus_eq_error_iff.mp herr).symm
  have hf' : (b.rejected b0 b1 b2).faulted = false := hf
  rw [Block.decodeCall, hrun, Block.decodeReply, hf']
  rfl

end

theorem decodeStatus_cases (b0 b1 b2 b3 : Byte) :
    decodeStatus b0 b1 b2 b3 = .ok (b0, b1) ∨ decodeStatus b0 b1 b2 b3 = .error .checksumError := by
  rw [decodeStatus_eq_ok_iff, decodeStatus_eq_error_iff]
  exact em _

/-! ### The transactions as instructions of the machine -/

theorem exec_of_call {i : Instr} {s : State} {c : Block} {o : Option Reply}
    (h : s.block.call Config.maxPayload i = (c, o)) : exec i s = .next { s with block := c } := by
  rw [exec_eq_next_execute, Block.execute, h]

/-- Settles O43: CRC_CLR makes the accumulator that of the empty message, and the bytes follow. -/
theorem crc16Transaction : Obligations.Crc16Transaction := by
  intro bs s hp hseq hill
  have hf : s.block.faulted = false := s.block.faulted_eq_false_iff.mpr ⟨hseq, hill⟩
  have hcall (m : Option Nat) :
      s.block.call m (.crc16 bs) = ({ s.block with crc := crc16 bs }, some (.crc (crc16 bs))) := by
    have hf' : ({ s.block with crc := crc16 bs } : Block).faulted = false := hf
    rw [Block.call, Block.crcCall, Block.runCrc16_of_idle hf hp, Block.crcReply, hf']
    rfl
  exact ⟨exec_of_call (hcall _), fun m => by rw [hcall]⟩

/-- The frame of `encode`, taken apart. -/
theorem encodeFrame_eq_ok {r : Int} {p : List Int} {f : List Byte} (h : encodeFrame r p = .ok f) :
    ∃ r' p', toByte r = .ok r' ∧ toBytes p = .ok p' ∧ (r' :: p').map byteValue = r :: p ∧ p'.length = p.length ∧
      f = frameOf (r' :: p') := by
  cases hfits : (r :: p).all fitsByte with
  | false => cases (encodeFrame_of_not_fits hfits).symm.trans h
  | true =>
    cases (encodeFrame_of_fits hfits).symm.trans h
    obtain ⟨hr, hp⟩ := Bool.and_eq_true_iff.mp hfits
    exact ⟨narrow r, p.map narrow, toByte_of_fitsByte hr, toBytes_of_all_fitsByte hp, map_byteValue_narrow hfits,
      p.length_map _, rfl⟩

theorem encodeFrame_eq_error {r : Int} {p : List Int} (h : encodeFrame r p = .error .validationError) :
    toBytes (r :: p) = .error .validationError := by
  cases hfits : (r :: p).all fitsByte with
  | false => exact toBytes_of_not_all_fitsByte hfits
  | true => cases (encodeFrame_of_fits hfits).symm.trans h

/-- 41_encode.md rule R98: from IDLE, ENCODE ends with the frame of the function `encode`. -/
theorem Block.encodeCall_of_encodeFrame {b : Block} {r : Int} {p : List Int} {f : List Byte} (hf : b.faulted = false)
    (hp : b.phase = .idle) (h : encodeFrame r p = .ok f) :
    ∃ body : List Byte, body.map byteValue = r :: p ∧ f = frameOf body ∧
      ∀ m : Option Nat, (∀ n, m = some n → p.length ≤ n) →
        b.encodeCall m r p = (b.withFrame body, some (.frame f)) := by
  obtain ⟨r', p', hr, hps, hvalues, hlen, rfl⟩ := encodeFrame_eq_ok h
  exact ⟨r' :: p', hvalues, rfl, fun m hroom => Block.encodeCall_of_idle hf hp hr hps (hlen ▸ hroom)⟩

/-- Settles O44: ENCODE from IDLE is `encodeCall_of_encodeFrame`, and on a ValidationError no command is issued. -/
theorem encodeTransaction : Obligations.EncodeTransaction := by
  intro r p s
  refine ⟨fun f hp hseq hill hframe => ?_, fun herr => ?_⟩
  · have hf : s.block.faulted = false := s.block.faulted_eq_false_iff.mpr ⟨hseq, hill⟩
    obtain ⟨body, hvalues, rfl, hcall⟩ := Block.encodeCall_of_encodeFrame hf hp hframe
    exact ⟨body, hvalues, rfl, hcall, fun hroom => exec_of_call (hcall _ hroom)⟩
  · have hcall (m : Option Nat) : s.block.call m (.encode r p) = (s.block, some (.error .validationError)) :=
      Block.encodeCall_of_error (encodeFrame_eq_error herr) m s.block
    exact ⟨hcall, exec_of_call (hcall _)⟩

/-- Settles O45: the first payload byte past MAX_PAYLOAD stops the block with the frame open. -/
theorem encodePastMaxPayload : Obligations.EncodePastMaxPayload := by
  intro r p n b hp hseq hill hlen
  have hf : b.faulted = false := b.faulted_eq_false_iff.mpr ⟨hseq, hill⟩
  have hfault : (b.openFrame (r :: p.take n)).seqFault.faulted = true := by simp [Block.faulted]
  rw [Block.call, Block.encodeCall_of_ok (toByte_of_toNat r) (toBytes_map_toNat p), Block.runEncode_of_too_long hf hp hlen,
    Block.encodeReply, hfault]
  rfl

/-- A request row is the ENCODE call with its register byte. -/
theorem call_of_requestRow {mk : List Int → Instr} {id : Byte}
    (h : (mk, id) ∈ [(Instr.brightness, 0x20#8), (Instr.rotate, 0x30#8), (Instr.power, 0x31#8), (Instr.maxIdx, 0x32#8),
      (Instr.idxStep, 0x33#8), (Instr.driveMode, 0x34#8)]) (b : Block) (m : Option Nat) (p : List Int) :
    b.call m (mk p) = b.encodeCall m (byteValue id) p := by
  simp only [List.mem_cons, List.not_mem_nil, or_false, Prod.mk.injEq] at h
  obtain ⟨rfl, rfl⟩ | ⟨rfl, rfl⟩ | ⟨rfl, rfl⟩ | ⟨rfl, rfl⟩ | ⟨rfl, rfl⟩ | ⟨rfl, rfl⟩ := h <;> rfl

/-- Settles O46: a request row is an ENCODE call, for which bytes narrow to themselves. -/
theorem requestFrames : Obligations.RequestFrames := by
  intro mk id s hrow
  refine ⟨fun p f c hp hseq hill hframe hc => ?_, fun p hout => ?_⟩
  · have hf : s.block.faulted = false := s.block.faulted_eq_false_iff.mpr ⟨hseq, hill⟩
    subst hc hframe
    have hcall (m : Option Nat) (hroom : ∀ n, m = some n → p.length ≤ n) :
        s.block.call m (mk (p.map fun b => (b.toNat : Int))) =
          (s.block.withFrame (id :: p), some (.frame (frameOf (id :: p)))) := by
      rw [call_of_requestRow hrow]
      exact Block.encodeCall_of_idle hf hp (toByte_of_toNat id) (toBytes_map_toNat p) hroom
    exact ⟨hcall, fun hroom => exec_of_call (hcall _ hroom)⟩
  · have hcall (m : Option Nat) : s.block.call m (mk p) = (s.block, some (.error .validationError)) := by
      obtain ⟨v, hmem, hv⟩ := hout
      rw [call_of_requestRow hrow]
      exact Block.encodeCall_of_error (toBytes_error_of_mem (List.mem_cons_of_mem _ hmem) hv) m s.block
    exact ⟨hcall, exec_of_call (hcall _)⟩

/-- Settles O47: both rows are the DECODE call, which ends as `decode_status` does. -/
theorem decodeTransaction : Obligations.DecodeTransaction := by
  intro b0 b1 b2 b3 i s hi hp hk hseq hill
  have hf : s.block.faulted = false := s.block.faulted_eq_false_iff.mpr ⟨hseq, hill⟩
  have hcall (m : Option Nat) : s.block.call m i = s.block.decodeCall b0 b1 b2 b3 := by
    obtain rfl | ⟨rfl, rfl⟩ := hi <;> rfl
  refine ⟨fun hok => ?_, fun herr => ?_⟩
  · have hdone (m : Option Nat) := (hcall m).trans (Block.decodeCall_of_match hf hp hk hok)
    exact ⟨exec_of_call (hdone _), fun m => by rw [hdone]⟩
  · have hdone (m : Option Nat) := (hcall m).trans (Block.decodeCall_of_mismatch hf hp hk herr)
    exact ⟨exec_of_call (hdone _), fun m => by rw [hdone]⟩

/-- Settles O49: the ends of ENCODE and DECODE from IDLE name nothing of the block before them in the fields compared. -/
theorem transactionsIgnoreHistory : Obligations.TransactionsIgnoreHistory := by
  intro m b b' c c' o o' hp hk hf hp' hk' hf'
  refine ⟨fun r p hwf hroom hc hc' => ?_, fun b0 b1 b2 b3 hc hc' => ?_⟩
  · obtain ⟨hr, hps⟩ : fitsByte r = true ∧ p.all fitsByte = true := Bool.and_eq_true_iff.mp hwf
    have hroom' : ∀ n, m = some n → (p.map narrow).length ≤ n := by simpa using hroom
    cases (Block.encodeCall_of_idle hf hp (toByte_of_fitsByte hr) (toBytes_of_all_fitsByte hps) hroom').symm.trans hc
    cases (Block.encodeCall_of_idle hf' hp' (toByte_of_fitsByte hr) (toBytes_of_all_fitsByte hps) hroom').symm.trans hc'
    exact ⟨rfl, rfl, rfl, rfl, rfl⟩
  · obtain hok | herr := decodeStatus_cases b0 b1 b2 b3
    · cases (Block.decodeCall_of_match hf hp hk hok).symm.trans hc
      cases (Block.decodeCall_of_match hf' hp' hk' hok).symm.trans hc'
      exact ⟨rfl, rfl, rfl, rfl, rfl, rfl, fun _ => ⟨rfl, rfl⟩⟩
    · cases (Block.decodeCall_of_mismatch hf hp hk herr).symm.trans hc
      cases (Block.decodeCall_of_mismatch hf' hp' hk' herr).symm.trans hc'
      exact ⟨rfl, rfl, rfl, rfl, rfl, rfl, fun hdv => by cases hdv⟩

end Sys2Proof.Machine
end

section
/-! PROOFS. The host contract, 60_exceptions.md section 7: the decision on one response, the poll loop, a call of
`send_and_confirm`, and the host's state machine. -/

namespace Sys2Proof.Machine

/-! ### The decision on one response (60_exceptions.md rules R129, R138, R139) -/

theorem decideStatus_of_cmdId_ne {c : Byte} (h : c ≠ 0x10#8) (st : Byte) :
    decideStatus c st = .finish .protocolMismatchError := if_pos h

theorem decideStatus_of_no_code {st : Byte} (h : 5 ≤ st.toNat) :
    decideStatus 0x10#8 st = .finish .unknownStatus := by
  have hne (code : Byte) (hcode : code.toNat < 5) : st ≠ code := by
    rintro rfl
    omega
  simp [decideStatus, Config.statusId, hne Config.success (by decide), hne Config.notReady (by decide),
    hne Config.wrongChecksum (by decide), hne Config.unknownCommand (by decide), hne Config.invalidValue (by decide)]

/-- Settles O52: a failed checksum is judged by the cached frame, and a delivered pair by `cmd_id`, then by each status. -/
theorem hostDecisionOnResponse : Obligations.HostDecisionOnResponse := by
  refine ⟨fun _ => rfl, rfl, fun cached c st => ⟨fun h => decideStatus_of_cmdId_ne h st, ?_⟩⟩
  rintro rfl
  obtain hlt | hge := Nat.lt_or_ge st.toNat 5
  · have hst : st = 0#8 ∨ st = 1#8 ∨ st = 2#8 ∨ st = 3#8 ∨ st = 4#8 := by
      simp only [← BitVec.toNat_inj, BitVec.toNat_ofNat]
      omega
    obtain rfl | rfl | rfl | rfl | rfl := hst <;> rfl
  · obtain ⟨n, hn⟩ := Nat.exists_eq_add_of_le' hge
    rw [hn]
    exact decideStatus_of_no_code hge

/-- Settles O57: the moves are those of the table of rule R144, and a judged response moves as its decision says. -/
theorem hostStateMachine : Obligations.HostStateMachine := by
  obtain ⟨-, -, hdecision⟩ := hostDecisionOnResponse
  refine ⟨fun q e hq => ?_, fun q => ?_, rfl, rfl, rfl, fun f c st => ⟨rfl, fun hne => ?_, fun heq => ?_⟩⟩
  · cases q with
    | succeeded | failedFatal | failedTimeout => rfl
    | _ => cases hq
  · cases q <;> simp [TransportState.terminal]
  · rw [TransportState.next_polling_decided, (hdecision (some f) c st).1 hne]
    rfl
  · rw [TransportState.next_polling_decided, (hdecision (some f) c st).2 heq]
    rcases st.toNat with _ | _ | _ | _ | _ | n <;> rfl

/-! ### The poll loop, by what the first response decides (60_exceptions.md rules R136, R141) -/

section
variable {n pollDelay : Nat} {cached : Option (List Byte)} {r : Response} {rs : List Response} {b : Block}

theorem pollLoop_of_finish {res : SendResult}
    (h : decidePoll cached (b.decodeCall r.b0 r.b1 r.b2 r.b3).2 = .finish res) :
    pollLoop (n + 1) pollDelay cached (r :: rs) b =
      (res, [.read r.b0 r.b1 r.b2 r.b3], (b.decodeCall r.b0 r.b1 r.b2 r.b3).1) := by
  simp only [pollLoop, h]

theorem pollLoop_of_continue (h : decidePoll cached (b.decodeCall r.b0 r.b1 r.b2 r.b3).2 = .continuePolling) :
    pollLoop (n + 1) pollDelay cached (r :: rs) b =
      ((pollLoop n pollDelay cached rs (b.decodeCall r.b0 r.b1 r.b2 r.b3).1).1,
        .read r.b0 r.b1 r.b2 r.b3 :: (delayEvents n pollDelay ++
          (pollLoop n pollDelay cached rs (b.decodeCall r.b0 r.b1 r.b2 r.b3).1).2.1),
        (pollLoop n pollDelay cached rs (b.decodeCall r.b0 r.b1 r.b2 r.b3).1).2.2) := by
  simp only [pollLoop, h]

theorem pollLoop_of_resend (h : decidePoll cached (b.decodeCall r.b0 r.b1 r.b2 r.b3).2 = .resend) :
    pollLoop (n + 1) pollDelay cached (r :: rs) b =
      ((pollLoop n pollDelay cached rs (b.decodeCall r.b0 r.b1 r.b2 r.b3).1).1,
        .read r.b0 r.b1 r.b2 r.b3 :: (resendEvents cached ++ delayEvents n pollDelay ++
          (pollLoop n pollDelay cached rs (b.decodeCall r.b0 r.b1 r.b2 r.b3).1).2.1),
        (pollLoop n pollDelay cached rs (b.decodeCall r.b0 r.b1 r.b2 r.b3).1).2.2) := by
  simp only [pollLoop, h]

theorem pollEvents_of_finish {res : SendResult}
    (h : decidePoll cached (b.decodeCall r.b0 r.b1 r.b2 r.b3).2 = .finish res) :
    pollEvents (n + 1) cached (r :: rs) b = [.poll, .decided (.finish res)] := by
  simp only [pollEvents, h]

theorem pollEvents_of_continue (h : decidePoll cached (b.decodeCall r.b0 r.b1 r.b2 r.b3).2 = .continuePolling) :
    pollEvents (n + 1) cached (r :: rs) b =
      .poll :: .decided .continuePolling :: pollEvents n cached rs (b.decodeCall r.b0 r.b1 r.b2 r.b3).1 := by
  simp only [pollEvents, h]

theorem pollEvents_of_resend (h : decidePoll cached (b.decodeCall r.b0 r.b1 r.b2 r.b3).2 = .resend) :
    pollEvents (n + 1) cached (r :: rs) b =
      .poll :: .decided .resend :: pollEvents n cached rs (b.decodeCall r.b0 r.b1 r.b2 r.b3).1 := by
  simp only [pollEvents, h]

end

/-! ### Counting reads and writes -/

theorem countReads_append (ev ev' : List BusEvent) : countReads (ev ++ ev') = countReads ev + countReads ev' :=
  List.countP_append

theorem countWrites_append (ev ev' : List BusEvent) : countWrites (ev ++ ev') = countWrites ev + countWrites ev' :=
  List.countP_append

@[simp] theorem countReads_nil : countReads [] = 0 := rfl
@[simp] theorem countReads_cons_read (b0 b1 b2 b3 : Byte) (ev : List BusEvent) :
    countReads (.read b0 b1 b2 b3 :: ev) = countReads ev + 1 := by simp [countReads]
@[simp] theorem countReads_cons_write (f : List Byte) (ev : List BusEvent) :
    countReads (.write f :: ev) = countReads ev := by simp [countReads]
@[simp] theorem countReads_cons_select (a : Nat) (ev : List BusEvent) :
    countReads (.select a :: ev) = countReads ev := by simp [countReads]
@[simp] theorem countReads_cons_record (f : List Byte) (ev : List BusEvent) :
    countReads (.record f :: ev) = countReads ev := by simp [countReads]

@[simp] theorem countWrites_nil : countWrites [] = 0 := rfl
@[simp] theorem countWrites_cons_read (b0 b1 b2 b3 : Byte) (ev : List BusEvent) :
    countWrites (.read b0 b1 b2 b3 :: ev) = countWrites ev := by simp [countWrites]
@[simp] theorem countWrites_cons_write (f : List Byte) (ev : List BusEvent) :
    countWrites (.write f :: ev) = countWrites ev + 1 := by simp [countWrites]
@[simp] theorem countWrites_cons_select (a : Nat) (ev : List BusEvent) :
    countWrites (.select a :: ev) = countWrites ev := by simp [countWrites]

@[simp] theorem countReads_delayEvents (n pollDelay : Nat) : countReads (delayEvents n pollDelay) = 0 := by
  rw [delayEvents]
  split <;> rfl

@[simp] theorem countWrites_delayEvents (n pollDelay : Nat) : countWrites (delayEvents n pollDelay) = 0 := by
  rw [delayEvents]
  split <;> rfl

@[simp] theorem countReads_resendEvents (cached : Option (List Byte)) : countReads (resendEvents cached) = 0 := by
  cases cached <;> rfl

/-- 60_exceptions.md rule R141: every read uses up an attempt, and a resend reads nothing. -/
theorem countReads_pollLoop_le (n pollDelay : Nat) (cached : Option (List Byte)) (rs : List Response) (b : Block) :
    countReads (pollLoop n pollDelay cached rs b).2.1 ≤ n := by
  induction n generalizing rs b with
  | zero => exact Nat.le_refl 0
  | succ n ih =>
    cases rs with
    | nil => exact Nat.zero_le _
    | cons r rs =>
      have hrest := ih rs (b.decodeCall r.b0 r.b1 r.b2 r.b3).1
      cases hd : decidePoll cached (b.decodeCall r.b0 r.b1 r.b2 r.b3).2 with
      | finish res => simp [pollLoop_of_finish hd]
      | continuePolling => simpa [pollLoop_of_continue hd, countReads_append] using hrest
      | resend => simpa [pollLoop_of_resend hd, countReads_append] using hrest

/-! ### A call, by what its ENCODE returns (60_exceptions.md rules R136, R142) -/

section
variable {m : Option Nat} {q : SendRequest} {rs : List Response} {b b' : Block}

theorem sendAndConfirm_of_dryRun {f : List Byte} (hd : q.dryRun = true)
    (h : b.encodeCall m q.register q.payload = (b', some (.frame f))) :
    sendAndConfirm m q rs b = (.ok, [.record f], b') := by
  simp [sendAndConfirm, h, hd]

theorem sendAndConfirm_of_live {f : List Byte} (hd : q.dryRun = false)
    (h : b.encodeCall m q.register q.payload = (b', some (.frame f))) :
    sendAndConfirm m q rs b =
      ((pollLoop q.maxAttempts q.pollDelay (some f) rs b').1,
        .select (Config.deviceAddress q.deviceIndex) :: .write f ::
          (pollLoop q.maxAttempts q.pollDelay (some f) rs b').2.1,
        (pollLoop q.maxAttempts q.pollDelay (some f) rs b').2.2) := by
  simp [sendAndConfirm, h, hd]

theorem sendAndConfirm_of_pollLoop {f : List Byte} {res : SendResult} {ev : List BusEvent} {c : Block}
    (hd : q.dryRun = false) (h : b.encodeCall m q.register q.payload = (b', some (.frame f)))
    (hpoll : pollLoop q.maxAttempts q.pollDelay (some f) rs b' = (res, ev, c)) :
    sendAndConfirm m q rs b = (res, .select (Config.deviceAddress q.deviceIndex) :: .write f :: ev, c) := by
  rw [sendAndConfirm_of_live hd h, hpoll]

theorem sendAndConfirm_of_error {e : CodecError}
    (h : b.encodeCall m q.register q.payload = (b', some (.error e))) :
    sendAndConfirm m q rs b = (.validationError, [], b') := by
  simp [sendAndConfirm, h]

/-- A call whose ENCODE returned no frame does nothing on the bus. -/
theorem sendAndConfirm_events_of_no_frame {o : Option Reply} (hno : ∀ f, o ≠ some (.frame f))
    (h : b.encodeCall m q.register q.payload = (b', o)) : (sendAndConfirm m q rs b).2.1 = [] := by
  rcases o with _ | (_ | f | _ | _)
  case some.frame => exact absurd rfl (hno f)
  all_goals simp [sendAndConfirm, h]

theorem sendStates_of_live {f : List Byte} (hd : q.dryRun = false)
    (h : b.encodeCall m q.register q.payload = (b', some (.frame f))) :
    sendStates m q rs b = TransportState.sent.trace (pollEvents q.maxAttempts (some f) rs b') := by
  simp [sendStates, h, hd]

end

/-- Settles O53: only the poll loop of a live call reads. -/
theorem readsBoundedByAttempts : Obligations.ReadsBoundedByAttempts := by
  intro m q rs b
  rcases hcall : b.encodeCall m q.register q.payload with ⟨b', o⟩
  by_cases hframe : ∃ f, o = some (.frame f)
  · obtain ⟨f, rfl⟩ := hframe
    cases hd : q.dryRun with
    | true => simp [sendAndConfirm_of_dryRun hd hcall]
    | false =>
      rw [sendAndConfirm_of_live hd hcall, countReads_cons_select, countReads_cons_write]
      exact countReads_pollLoop_le _ _ _ _ _
  · rw [sendAndConfirm_events_of_no_frame (not_exists.mp hframe) hcall]
    exact Nat.zero_le _

/-! ### Polls of an idle block (60_exceptions.md rule R141) -/

/-- Ready for a transaction: nothing open, no sticky fault. -/
structure Block.Ready (b : Block) : Prop where
  phase : b.phase = .idle
  idx : b.idx = 0
  fault_free : b.faulted = false

@[simp] theorem Block.delivered_txbuf (b0 b1 b2 : Byte) (b : Block) : (b.delivered b0 b1 b2).txbuf = b.txbuf := rfl

/-- The STATUS response NOT_READY. -/
def notReadyResponse : Response := ⟨0x10#8, 0x03#8, 0x10#8, 0x33#8⟩

/-- The STATUS response SUCCESS. -/
def successResponse : Response := ⟨0x10#8, 0x00#8, 0x73#8, 0x03#8⟩

theorem decodeStatus_notReadyResponse : decodeStatus 0x10#8 0x03#8 0x10#8 0x33#8 = .ok (0x10#8, 0x03#8) := by
  decide +kernel

theorem decodeStatus_successResponse : decodeStatus 0x10#8 0x00#8 0x73#8 0x03#8 = .ok (0x10#8, 0x00#8) := by
  decide +kernel

section
variable {b : Block} (hb : b.Ready)
include hb

theorem Block.Ready.delivered (b0 b1 b2 : Byte) : (b.delivered b0 b1 b2).Ready := ⟨rfl, rfl, hb.fault_free⟩

theorem Block.Ready.withFrame (body : List Byte) : (b.withFrame body).Ready := ⟨rfl, hb.idx, hb.fault_free⟩

theorem decodeCall_successResponse :
    b.decodeCall successResponse.b0 successResponse.b1 successResponse.b2 successResponse.b3 =
      (b.delivered 0x10#8 0x00#8 0x73#8, some (.status 0x10#8 0x00#8)) :=
  Block.decodeCall_of_match hb.fault_free hb.phase hb.idx decodeStatus_successResponse

theorem decodeCall_notReadyResponse :
    b.decodeCall notReadyResponse.b0 notReadyResponse.b1 notReadyResponse.b2 notReadyResponse.b3 =
      (b.delivered 0x10#8 0x03#8 0x10#8, some (.status 0x10#8 0x03#8)) :=
  Block.decodeCall_of_match hb.fault_free hb.phase hb.idx decodeStatus_notReadyResponse

theorem pollLoop_successResponse (n pollDelay : Nat) (cached : Option (List Byte)) (rs : List Response) :
    pollLoop (n + 1) pollDelay cached (successResponse :: rs) b =
      (.ok, [.read 0x10#8 0x00#8 0x73#8 0x03#8], b.delivered 0x10#8 0x00#8 0x73#8) := by
  have hdecide : decidePoll cached
      (b.decodeCall successResponse.b0 successResponse.b1 successResponse.b2 successResponse.b3).2 = .finish .ok := by
    rw [decodeCall_successResponse hb]
    rfl
  rw [pollLoop_of_finish hdecide, decodeCall_successResponse hb]
  rfl

theorem pollLoop_notReadyResponse (n pollDelay : Nat) (cached : Option (List Byte)) (rs : List Response) :
    pollLoop (n + 1) pollDelay cached (notReadyResponse :: rs) b =
      ((pollLoop n pollDelay cached rs (b.delivered 0x10#8 0x03#8 0x10#8)).1,
        .read 0x10#8 0x03#8 0x10#8 0x33#8 :: (delayEvents n pollDelay ++
          (pollLoop n pollDelay cached rs (b.delivered 0x10#8 0x03#8 0x10#8)).2.1),
        (pollLoop n pollDelay cached rs (b.delivered 0x10#8 0x03#8 0x10#8)).2.2) := by
  have hdecide : decidePoll cached (b.decodeCall notReadyResponse.b0 notReadyResponse.b1 notReadyResponse.b2
      notReadyResponse.b3).2 = .continuePolling := by
    rw [decodeCall_notReadyResponse hb]
    rfl
  rw [pollLoop_of_continue hdecide, decodeCall_notReadyResponse hb]
  rfl

/-- NOT_READY polls only add their reads, and leave the block ready with the same frame. -/
theorem pollLoop_notReadyResponses (k n pollDelay : Nat) (cached : Option (List Byte)) (rs : List Response) :
    ∃ ev c, c.Ready ∧ c.txbuf = b.txbuf ∧ countReads ev = k ∧ countWrites ev = 0 ∧
      ∀ res ev' c', pollLoop n pollDelay cached rs c = (res, ev', c') →
        pollLoop (n + k) pollDelay cached (List.replicate k notReadyResponse ++ rs) b = (res, ev ++ ev', c') := by
  induction k generalizing b with
  | zero => exact ⟨[], b, hb, rfl, rfl, rfl, fun _ _ _ h => h⟩
  | succ k ih =>
    obtain ⟨ev, c, hc, htxbuf, hreads, hwrites, hrest⟩ := ih (hb.delivered 0x10#8 0x03#8 0x10#8)
    rw [Block.delivered_txbuf] at htxbuf
    refine ⟨.read 0x10#8 0x03#8 0x10#8 0x33#8 :: (delayEvents (n + k) pollDelay ++ ev), c, hc, htxbuf, ?_, ?_,
      fun res ev' c' h => ?_⟩
    · simp [countReads_append, hreads]
    · simp [countWrites_append, hwrites]
    · rw [← Nat.add_assoc, List.replicate_succ, List.cons_append, pollLoop_notReadyResponse hb, hrest res ev' c' h]
      simp only [List.cons_append, List.append_assoc]

end

/-- What a live call from a ready block does: it writes the frame, and polls a ready block that holds it. -/
theorem encodeCall_of_ready {m : Option Nat} {q : SendRequest} {f : List Byte} {b : Block} (hb : b.Ready)
    (hroom : ∀ n, m = some n → q.payload.length ≤ n) (hf : encodeFrame q.register q.payload = .ok f) :
    ∃ b' : Block, b'.Ready ∧ b'.txbuf = f ∧ b.encodeCall m q.register q.payload = (b', some (.frame f)) := by
  obtain ⟨body, -, rfl, hcall⟩ := Block.encodeCall_of_encodeFrame hb.fault_free hb.phase hf
  exact ⟨b.withFrame body, hb.withFrame body, rfl, hcall m hroom⟩

/-- Settles O54: the NOT_READY polls are followed by the poll of SUCCESS, or use up the attempts. -/
theorem notReadyThenSuccessOrTimeout : Obligations.NotReadyThenSuccessOrTimeout := by
  intro m q rest k f b hp hk hfault hroom hframe hd
  obtain ⟨b', hb', htxbuf, hcall⟩ := encodeCall_of_ready ⟨hp, hk, hfault⟩ hroom hframe
  refine ⟨fun hlt => ?_, ?_⟩
  · obtain ⟨n, hn⟩ : ∃ n, q.maxAttempts = n + 1 + k := ⟨q.maxAttempts - 1 - k, by omega⟩
    obtain ⟨ev, c, hc, hctxbuf, hreads, hwrites, hpolls⟩ :=
      pollLoop_notReadyResponses hb' k (n + 1) q.pollDelay (some f) (successResponse :: rest)
    rw [← hn] at hpolls
    have hpoll := hpolls _ _ _ (pollLoop_successResponse hc _ _ _ _)
    refine ⟨_, _, sendAndConfirm_of_pollLoop hd hcall hpoll, ?_, ?_, ?_⟩
    · simp [countWrites_append, hwrites]
    · simp [countReads_append, hreads]
    · rw [Block.delivered_txbuf, hctxbuf, htxbuf]
  · obtain ⟨ev, c, hc, hctxbuf, hreads, hwrites, hpolls⟩ :=
      pollLoop_notReadyResponses hb' q.maxAttempts 0 q.pollDelay (some f) []
    rw [List.append_nil, Nat.zero_add] at hpolls
    refine ⟨_, _, sendAndConfirm_of_pollLoop hd hcall (hpolls _ _ _ rfl), ?_, ?_, hctxbuf.trans htxbuf⟩
    · simp [hwrites]
    · simp [hreads]

/-- Settles O55: ENCODE alone decides a dry run and a ValidationError; the live call polls the one response SUCCESS. -/
theorem dryRunAndValidationTouchNoBus : Obligations.DryRunAndValidationTouchNoBus := by
  intro m q rest b
  refine ⟨fun f hp hk hfault hroom hframe => ?_, fun herr => ?_⟩
  · obtain ⟨b', hb', htxbuf, hcall⟩ := encodeCall_of_ready ⟨hp, hk, hfault⟩ hroom hframe
    refine ⟨⟨b', sendAndConfirm_of_dryRun rfl hcall, htxbuf⟩, fun hattempts => ?_⟩
    obtain ⟨n, hn⟩ := Nat.exists_eq_add_of_le' hattempts
    have hpoll := pollLoop_successResponse hb' n q.pollDelay (some f) rest
    rw [← hn] at hpoll
    exact ⟨_, _, sendAndConfirm_of_pollLoop rfl hcall hpoll, rfl⟩
  · exact sendAndConfirm_of_error (Block.encodeCall_of_error (encodeFrame_eq_error herr) m b)

/-! ### The states of a call (60_exceptions.md rule R144) -/

/-- A sequence of states that ends in `final`, is not terminal before that, and goes from FailedRetryable to Polling. -/
inductive CallTrace (final : TransportState) : List TransportState → Prop
  | last (h : final ≠ .failedRetryable) : CallTrace final [final]
  | cons {q q' : TransportState} {states : List TransportState} (hq : q.terminal = false)
      (hretry : q = .failedRetryable → q' = .polling) (hrest : CallTrace final (q' :: states)) :
      CallTrace final (q :: q' :: states)

section
variable {final : TransportState} {states : List TransportState} (h : CallTrace final states)
include h

theorem CallTrace.getLast? : states.getLast? = some final := by
  induction h with
  | last _ => rfl
  | cons _ _ _ ih => rw [List.getLast?_cons_cons, ih]

theorem CallTrace.terminal_last (k : Nat) (p : TransportState) (hk : states[k]? = some p) (hp : p.terminal = true) :
    k + 1 = states.length := by
  induction h generalizing k with
  | last _ =>
    cases k with
    | zero => rfl
    | succ k => cases hk
  | cons hq _ _ ih =>
    cases k with
    | zero =>
      cases hk
      simp [hq] at hp
    | succ k => exact congrArg (· + 1) (ih k hk)

theorem CallTrace.polling_of_failedRetryable (k : Nat) (hk : states[k]? = some .failedRetryable) :
    states[k + 1]? = some .polling := by
  induction h generalizing k with
  | last hne =>
    cases k with
    | zero => exact absurd (Option.some.inj hk) hne
    | succ k => cases hk
  | cons _ hretry _ ih =>
    cases k with
    | zero => exact congrArg some (hretry (Option.some.inj hk))
    | succ k => exact ih k hk

end

/-- No result is a state to try again from. -/
theorem SendResult.state_ne_failedRetryable (res : SendResult) : res.state ≠ .failedRetryable := by
  cases res <;> simp [SendResult.state]

/-- The states from which a poll begins. -/
structure TransportState.BeginsPoll (q : TransportState) : Prop where
  next_poll : q.next .poll = .polling
  not_terminal : q.terminal = false

/-- A poll takes a state that begins one through Polling. -/
theorem CallTrace.poll {q q' : TransportState} {final : TransportState} {states : List TransportState}
    (hq : q.BeginsPoll) (h : CallTrace final (q' :: states)) : CallTrace final (q :: .polling :: q' :: states) :=
  .cons hq.not_terminal (fun _ => rfl) (.cons rfl (fun hpolling => by cases hpolling) h)

theorem TransportState.exists_trace_eq_cons (q : TransportState) (es : List TransportEvent) :
    ∃ states, q.trace es = q :: states := by
  cases es with
  | nil => exact ⟨[], rfl⟩
  | cons e es => exact ⟨_, rfl⟩

/-- The state machine follows the poll loop to its result. -/
theorem callTrace_pollEvents (n pollDelay : Nat) (cached : Option (List Byte)) (rs : List Response) (b : Block)
    {q : TransportState} (hq : q.BeginsPoll) :
    CallTrace (pollLoop n pollDelay cached rs b).1.state (q.trace (pollEvents n cached rs b)) := by
  induction n generalizing rs b q with
  | zero =>
    rw [pollEvents, TransportState.trace_cons, hq.next_poll]
    exact .poll hq (.last (by simp [pollLoop, SendResult.state]))
  | succ n ih =>
    cases rs with
    | nil =>
      rw [pollEvents, TransportState.trace_cons, hq.next_poll]
      exact .cons hq.not_terminal (fun _ => rfl) (.last (SendResult.state_ne_failedRetryable .reading))
    | cons r rs =>
      have hgoOn {d : PollDecision} (hd : d.state.BeginsPoll) :
          CallTrace (pollLoop n pollDelay cached rs (b.decodeCall r.b0 r.b1 r.b2 r.b3).1).1.state
            (q.trace (.poll :: .decided d :: pollEvents n cached rs (b.decodeCall r.b0 r.b1 r.b2 r.b3).1)) := by
        have hrest := ih rs (b.decodeCall r.b0 r.b1 r.b2 r.b3).1 hd
        obtain ⟨states, hstates⟩ := d.state.exists_trace_eq_cons
          (pollEvents n cached rs (b.decodeCall r.b0 r.b1 r.b2 r.b3).1)
        rw [hstates] at hrest
        rw [TransportState.trace_cons, hq.next_poll, TransportState.trace_cons, TransportState.next_polling_decided, hstates]
        exact .poll hq hrest
      cases hd : decidePoll cached (b.decodeCall r.b0 r.b1 r.b2 r.b3).2 with
      | finish res =>
        rw [pollLoop_of_finish hd, pollEvents_of_finish hd, TransportState.trace_cons, hq.next_poll]
        exact .poll hq (.last res.state_ne_failedRetryable)
      | continuePolling =>
        rw [pollLoop_of_continue hd, pollEvents_of_continue hd]
        exact hgoOn ⟨rfl, rfl⟩
      | resend =>
        rw [pollLoop_of_resend hd, pollEvents_of_resend hd]
        exact hgoOn ⟨rfl, rfl⟩

/-- Settles O58: the states of a live call are a `CallTrace` from Sent to the state of its result. -/
theorem callEndsInTheStateOfItsResult : Obligations.CallEndsInTheStateOfItsResult := by
  intro m q rs f b hp hfault hroom hframe hd
  obtain ⟨body, -, -, hencode⟩ := Block.encodeCall_of_encodeFrame hfault hp hframe
  have hcall := hencode m hroom
  have htrace := callTrace_pollEvents q.maxAttempts q.pollDelay (some f) rs (b.withFrame body) (q := .sent) ⟨rfl, rfl⟩
  rw [sendStates_of_live hd hcall, sendAndConfirm_of_live hd hcall]
  refine ⟨?_, htrace.getLast?, htrace.terminal_last, htrace.polling_of_failedRetryable⟩
  obtain ⟨states, hstates⟩ := TransportState.sent.exists_trace_eq_cons
    (pollEvents q.maxAttempts (some f) rs (b.withFrame body))
  rw [hstates, List.head?_cons]

end Sys2Proof.Machine
end
